-- ==== Sys2Proof/Word.lean ====
section
/-! DEFINITION. The words of the engine: bytes, 32-bit host words, the clock's counts at any width, the 9-bit byte counts
and the 16-bit millisecond thresholds (spec 00_scope.md R14, R15, R17; 10_state.md R24; 30_encoding.md R89, R98). -/

namespace Sys2Proof

/-- A byte, bit 7 the most significant (R15). -/
abbrev Byte := BitVec 8

/-- A whole word of the host port: a command word, STATUS or RESULT (20_memory.md R54). -/
abbrev Word := BitVec 32

/-- A count of microseconds: a number below 2^TIME_WIDTH, TIME_WIDTH a parameter (R14; assumption log 20). -/
abbrev Time := Nat

/-- A threshold in milliseconds, THRESH_WIDTH = 16 bits (R11, 30_encoding.md R98). -/
abbrev Ms := BitVec 16

/-- A byte index or a frame length, 9 bits (10_state.md R24 to R27). -/
abbrev Count := BitVec 9

end Sys2Proof
end

