-- ==== Sys2Proof/Config.lean ====
section
/-! DEFINITION. What is fixed for a run: the buffer size, the closed list of error codes, the parameters of spec
00_scope.md section 4 as one record (10_state.md R41), and the free values (`any` of R19) as constants with no body. -/

namespace Sys2Proof

/-- The closed error taxonomy with the spec's 4-bit codes (60_exceptions.md R220 to R228). -/
inductive ErrorCode where
  | errNone            -- 0, the reset value of LAST_ERROR
  | p3MaxExceeded      -- 1, R221
  | p2MaxTimeout       -- 2, R222
  | badFormat          -- 3, R223
  | badTargetAddress   -- 4, R224
  | badSourceAddress   -- 5, R225
  | bufferOverflow     -- 6, R226
  | checksumMismatch   -- 7, R227
  | echoMismatch       -- 8, R228
  deriving DecidableEq, Repr, Inhabited

/-- The parameters of an engine, "a configuration record fixed for a run" (10_state.md R41; 00_scope.md R11, R12 and
the table of its section 4). -/
structure Params where
  timeWidth  : Nat
  p2Max      : Ms
  p3Min      : Ms
  p3Max      : Ms
  p4Min      : Ms
  testerAddr : Byte
  ecuAddr    : Byte
  rxFormat   : Byte
  scSid      : Byte
  wIdleMs    : Ms
  wLowMs     : Ms
  wHighMs    : Ms
  initRxCap  : Count
  deriving DecidableEq, Repr

/-- The defaults of 00_scope.md section 4. The four timing values are marked there "from general knowledge, not in
source": PRESUMED, assumption log 4. -/
def Params.default : Params where
  timeWidth  := 32
  p2Max      := 50
  p3Min      := 55
  p3Max      := 5000
  p4Min      := 5
  testerAddr := 0xF1
  ecuAddr    := 0x11
  rxFormat   := 0x80
  scSid      := 0x00
  wIdleMs    := 350
  wLowMs     := 25
  wHighMs    := 25
  initRxCap  := 260

/-- TXBUF_SIZE and RXBUF_SIZE (10_state.md R29, R30). -/
abbrev bufSize : Nat := 260

/-- LAST_ERROR after a fallible command that did not fail: a code in 0 to 8 and nothing more (60_exceptions.md R235;
assumption log 9). -/
opaque Config.anyErrorCode : Nat → ErrorCode

/-- A byte the spec leaves unspecified: a buffer byte after `rst` (10_state.md R43) and what a host read of a buffer
returns while the engine is busy (20_memory.md R66; assumption logs 8 and 12). -/
opaque Config.anyByte : Nat → Byte

/-- REF and DREF after `rst`, before they are cut to TIME_WIDTH bits (10_state.md R43; assumption log 8). -/
opaque Config.anyTime : Nat → Nat

/-- IDX, TXLEN, TOTAL and RXCAP after `rst` (10_state.md R43; assumption log 8). -/
opaque Config.anyCount : Nat → Count

/-- POLL_GAP, the microseconds before a poll step that no listed input places (00_scope.md R8; assumption log 2). -/
opaque Config.pollGap : Nat → Nat

end Sys2Proof
end

