-- ==== Sys2Proof/Syntax.lean ====
section
/-! DEFINITION. The eight commands of the engine, one constructor per row of spec/opcode_table.json
(30_encoding.md R89 to R91). -/

namespace Sys2Proof

/-- BSEL, the buffer a CHECKSUM reads (R89). -/
inductive BufSel where
  | tx
  | rx
  deriving DecidableEq, Repr

/-- A command with its operands as the command word carries them (R91). -/
inductive Instr where
  /-- TW_RESET, `reset()`. -/
  | twReset
  /-- TW_ELAPSED ms, `elapsed_at_least(threshold_ms)`. -/
  | twElapsed (ms : Ms)
  /-- CHECKSUM buf, n, `checksum(bytes, length)`. -/
  | checksum (buf : BufSel) (len : BitVec 16)
  /-- IS_POSITIVE, `is_positive_response(request, response)`. -/
  | isPositive
  /-- SEND_REQUEST, `send_request(request)`. -/
  | sendRequest
  /-- RECEIVE_RESPONSE cap, `receive_response(buffer)`. -/
  | receiveResponse (cap : BitVec 16)
  /-- GET_LAST_ERROR, the last-error accessor. -/
  | getLastError
  /-- INITIALIZE, `initialize()`. -/
  | ecuInitialize
  deriving DecidableEq, Repr

end Sys2Proof
end

