-- ==== Sys2Proof/WellFormed.lean ====
section
/-! DEFINITION. Well-formed commands (the operand ranges of 30_encoding.md R92) and well-formed parameters
(00_scope.md R11 and the ranges of its section 4). -/

namespace Sys2Proof

/-- R92: a CHECKSUM counts at most 260 bytes, a RECEIVE_RESPONSE grants 4 to 260; every other operand value is allowed. -/
def Instr.wf : Instr → Bool
  | .twReset => true
  | .twElapsed _ => true
  | .checksum _ len => decide (len.toNat ≤ bufSize)
  | .isPositive => true
  | .sendRequest => true
  | .receiveResponse cap => decide (4 ≤ cap.toNat ∧ cap.toNat ≤ bufSize)
  | .getLastError => true
  | .ecuInitialize => true

/-- "The model must require P3_MIN < P3_MAX" (R11), and INIT_RX_CAP lies in 6 to 260 (45_ecu_initializer.md R200). -/
def Params.wf (p : Params) : Bool :=
  decide (p.p3Min.toNat < p.p3Max.toNat ∧ 6 ≤ p.initRxCap.toNat ∧ p.initRxCap.toNat ≤ bufSize)

end Sys2Proof
end

