-- ==== Sys2Proof/Decode.lean ====
section
/-! DEFINITION. The command word: the decoder, total on every 32-bit word and refusing by name, and the encoder
(30_encoding.md R89 to R92). -/

namespace Sys2Proof

/-- Why a command word is reserved (R92). The fifth reason, a busy engine, is the host port's and not the word's. -/
inductive DecodeReject where
  /-- OP is 0x00 or 0x09 to 0xFF. -/
  | reservedOpcode
  /-- A bit the format requires to be zero is one. -/
  | mustBeZero
  /-- OP is CHECKSUM and IMM16 is greater than 260. -/
  | checksumLength
  /-- OP is RECEIVE_RESPONSE and IMM16 is less than 4 or greater than 260. -/
  | responseCapacity
  deriving DecidableEq, Repr

/-- OP, `CW[31:24]` (R89). -/
def opField (w : Word) : BitVec 8 := w.extractLsb' 24 8

/-- BSEL, `CW[16]` (R89). -/
def bselField (w : Word) : BitVec 1 := w.extractLsb' 16 1

/-- IMM16, `CW[15:0]` (R89). -/
def immField (w : Word) : BitVec 16 := w.extractLsb' 0 16

/-- Format CF0: `CW[23:0] = 0` (R90). -/
def decodeCF0 (w : Word) (i : Instr) : Except DecodeReject Instr :=
  if w.extractLsb' 0 24 = 0 then .ok i else .error .mustBeZero

/-- Format CF1: `CW[23:16] = 0` (R90). -/
def decodeCF1 (w : Word) (k : BitVec 16 → Except DecodeReject Instr) : Except DecodeReject Instr :=
  if w.extractLsb' 16 8 = 0 then k (immField w) else .error .mustBeZero

/-- BSEL's meaning: 0 = TXBUF, 1 = RXBUF (R89). -/
def bufSelOf (b : BitVec 1) : BufSel := if b = 0 then .tx else .rx

/-- Format CF2: `CW[23:17] = 0` (R90). -/
def decodeCF2 (w : Word) (k : BufSel → BitVec 16 → Except DecodeReject Instr) : Except DecodeReject Instr :=
  if w.extractLsb' 17 7 = 0 then k (bufSelOf (bselField w)) (immField w) else .error .mustBeZero

/-- The length check of CHECKSUM (R92). -/
def decodeChecksum (buf : BufSel) (len : BitVec 16) : Except DecodeReject Instr :=
  if len.toNat ≤ bufSize then .ok (.checksum buf len) else .error .checksumLength

/-- The capacity check of RECEIVE_RESPONSE (R92). -/
def decodeReceive (cap : BitVec 16) : Except DecodeReject Instr :=
  if 4 ≤ cap.toNat ∧ cap.toNat ≤ bufSize then .ok (.receiveResponse cap) else .error .responseCapacity

/-- The opcode map of R91. -/
def decode (w : Word) : Except DecodeReject Instr :=
  match (opField w).toNat with
  | 0x01 => decodeCF0 w .twReset
  | 0x02 => decodeCF1 w fun ms => .ok (.twElapsed ms)
  | 0x03 => decodeCF2 w decodeChecksum
  | 0x04 => decodeCF0 w .isPositive
  | 0x05 => decodeCF0 w .sendRequest
  | 0x06 => decodeCF1 w decodeReceive
  | 0x07 => decodeCF0 w .getLastError
  | 0x08 => decodeCF0 w .ecuInitialize
  | _ => .error .reservedOpcode

/-- Format CF0 from its opcode (R90). -/
def encodeCF0 (op : BitVec 8) : Word := op ++ 0#24

/-- Format CF1 from its opcode and immediate (R90). -/
def encodeCF1 (op : BitVec 8) (imm : BitVec 16) : Word := op ++ (0#8 ++ imm : BitVec 24)

/-- BSEL of a buffer (R89). -/
def bufSelBit : BufSel → BitVec 1
  | .tx => 0
  | .rx => 1

/-- Format CF2 from its opcode, buffer select and immediate (R90). -/
def encodeCF2 (op : BitVec 8) (buf : BufSel) (imm : BitVec 16) : Word :=
  op ++ (0#7 ++ (bufSelBit buf ++ imm : BitVec 17) : BitVec 24)

/-- The command word of a command (R89 to R91). -/
def encode : Instr → Word
  | .twReset => encodeCF0 0x01
  | .twElapsed ms => encodeCF1 0x02 ms
  | .checksum buf len => encodeCF2 0x03 buf len
  | .isPositive => encodeCF0 0x04
  | .sendRequest => encodeCF0 0x05
  | .receiveResponse cap => encodeCF1 0x06 cap
  | .getLastError => encodeCF0 0x07
  | .ecuInitialize => encodeCF0 0x08

/-- A decoding as an Option, its reason dropped. -/
def decoded? : Except DecodeReject Instr → Option Instr
  | .ok i => some i
  | .error _ => none

/-- The instruction the decoder reads from a table row's word: bit 0 of the table's numbering is bit 0 of the command
word, and bits above `nbits` are zero. A number that needs more than 32 bits is no command word. -/
def decodeTableWord (nbits w : Nat) : Option Instr :=
  if w % 2 ^ nbits < 2 ^ 32 then decoded? (decode (BitVec.ofNat 32 (w % 2 ^ nbits))) else none

end Sys2Proof
end

