-- ==== Sys2Proof/Machine/State.lean ====
section
/-! DEFINITION. Every piece of state the spec gives the engine (10_state.md R20) and its environment (R40), the
environment's moves, the reasons a step can stop, and the state after reset (R43). -/

namespace Sys2Proof.Machine

/-- A frame buffer: (offset, byte) pairs with rising offsets, none equal to the unwritten byte (20_memory.md R50;
assumption log 6). -/
abbrev Memory := List Host.Cell

/-- PHASE, what the engine does at the next poll step (10_state.md R23). -/
inductive Phase where
  | idle
  | txGate
  | txWait
  | txPut
  | txEcho
  | rxAssemble
  | rxPeek
  | initWake
  deriving DecidableEq, Repr

/-- ISTEP, which step of INITIALIZE is running, 0 to 7 in this order (10_state.md R28). -/
inductive InitStep where
  /-- 0: INITIALIZE is not running. -/
  | notRunning
  /-- 1: wake-up, idle-high interval. -/
  | wakeIdle
  /-- 2: wake-up, low interval. -/
  | wakeLow
  /-- 3: wake-up, high interval. -/
  | wakeHigh
  /-- 4: start-communication request being sent. -/
  | sendStart
  /-- 5: its response being received. -/
  | recvStart
  /-- 6: start-diagnostic-session request being sent. -/
  | sendSession
  /-- 7: its response being received. -/
  | recvSession
  deriving DecidableEq, Repr

/-- RESULT, the outcome of the last completed command: a kind and its value (10_state.md R31, 30_encoding.md R94). -/
inductive Result where
  | none
  | finished
  | pending
  | error (c : ErrorCode)
  | bool (b : Bool)
  | byte (b : Byte)
  | errcode (c : ErrorCode)
  deriving DecidableEq, Repr

/-- How a transmitter or receiver operation ends: the argument of `complete` (00_scope.md R19). -/
inductive OpResult where
  | finished
  | pending
  | error (c : ErrorCode)
  deriving DecidableEq, Repr

/-- One move of the environment (00_scope.md R9, 70_reset_and_hazards.md R250), or the place of one poll step between
the moves (R8). Assumption logs 1 and 11. -/
inductive Input where
  /-- The engine takes a poll step here. -/
  | poll
  /-- The clock advances by some microseconds. -/
  | advance (d : Nat)
  /-- Bytes arrive on the line, oldest first. -/
  | arrive (bs : List Byte)
  /-- The host writes a 32-bit word. -/
  | writeWord (addr : Nat) (w : Word)
  /-- The host writes a byte. -/
  | writeByte (addr : Nat) (b : Byte)
  /-- The host reads a 32-bit word. -/
  | readWord (addr : Nat)
  /-- The host reads a byte. -/
  | readByte (addr : Nat)
  /-- `rst` is asserted. -/
  | rst
  deriving DecidableEq, Repr

/-- The state: the engine's fourteen elements (10_state.md R20), the environment's three (R40), and four fields of the
model's own (assumption logs 1, 3, 9, 11). -/
structure State where
  /-- REF, the timing-window reference timestamp (R21). -/
  ref       : Time
  /-- LAST_ERROR, the communication-error slot (R22). -/
  lastError : ErrorCode
  /-- PHASE (R23). -/
  phase     : Phase
  /-- IDX, the byte index of the frame being sent or received (R24). -/
  idx       : Count
  /-- TXLEN, the length of the request being sent (R25). -/
  txlen     : Count
  /-- TOTAL, the length of the response being assembled (R26). -/
  total     : Count
  /-- RXCAP, the capacity granted to the running RECEIVE_RESPONSE (R27). -/
  rxcap     : Count
  /-- TXBUF, the request buffer (R29). -/
  txbuf     : Memory
  /-- RXBUF, the response buffer (R30). -/
  rxbuf     : Memory
  /-- RESULT (R31). -/
  result    : Result
  /-- DREF, the reference of the wake-up delays (R33). -/
  dref      : Time
  /-- ISTEP (R28). -/
  istep     : InitStep
  /-- WAKE_PIN, true = high (R34). -/
  wakePin   : Bool
  /-- LINE_EN, true = normal line transmission (R34). -/
  lineEn    : Bool
  /-- `now`, the clock input (R40). -/
  now       : Time
  /-- RXQ, the transport's receive queue, oldest byte first (R40). -/
  rxq       : List Byte
  /-- TXLOG, every byte passed to LineWrite, oldest first (R40). -/
  txlog     : List Byte
  /-- The model's own: the parameters, fixed for a run (R41; log 3). -/
  params    : Params
  /-- The model's own: the environment's moves still to come, oldest first (log 1). -/
  inputs    : List Input
  /-- The model's own: what the last host read returned (R39; log 11). -/
  hostData  : Word
  /-- The model's own: how many free values have been drawn (log 9). -/
  draws     : Nat
  deriving DecidableEq, Repr

/-- Why the machine stops. Neither reason is reached from a state that meets `Inv` (Sys2Proof/Safety.lean); both stops
are safe. -/
inductive Fault where
  /-- Raised by a TX_PUT, TX_ECHO or RX_ASSEMBLE poll step whose IDX is no offset of a buffer (260 or more): the spec
  gives no such byte (20_memory.md R50; log 14). Safe. -/
  | bufferOffset
  /-- Raised by `complete` when ISTEP is 1, 2 or 3, for which 45_ecu_initializer.md R195 has no arm (log 15). Safe. -/
  | noContinuation
  deriving DecidableEq, Repr

/-- Why an input is given no meaning (00_scope.md R19 `refuse`). No state changes; all are safe. -/
inductive Refusal where
  /-- Raised by exec for a command whose meaning is not written yet; no arm uses it. Safe. -/
  | notModelled (mnemonic : String)
  /-- Raised by a CMD write of a reserved word, or by a meaning given an operand R92 reserves (30_encoding.md R92,
  93_implementation_defined.md U9; logs 13, 16). Safe. -/
  | reservedCommand (why : DecodeReject)
  /-- Raised by a CMD write while PHASE is not IDLE (20_memory.md R63, U8; log 13). Safe. -/
  | busyCommand
  /-- Raised by a buffer write while PHASE is not IDLE (20_memory.md R66, U8; log 13). Safe. -/
  | busyBufferWrite
  /-- Raised by a byte access to CMD, STATUS or RESULT: "A mixed-width access does not exist" (20_memory.md R54;
  log 11). Safe. -/
  | mixedWidthAccess
  deriving DecidableEq, Repr

/-- The outcome of a step of the engine. -/
abbrev StepResult := Host.Outcome State Fault Refusal

/-- The machine right after reset (10_state.md R43). REF, DREF, IDX, TXLEN, TOTAL and RXCAP are "unspecified" there:
DESIGN CHOICE zero, log 5; unwritten buffer bytes, log 6; `now`, log 7; the parameters, log 4; the model's own fields,
logs 1, 9 and 11. -/
def State.reset : State where
  ref       := 0
  lastError := .errNone
  phase     := .idle
  idx       := 0
  txlen     := 0
  total     := 0
  rxcap     := 0
  txbuf     := []
  rxbuf     := []
  result    := .none
  dref      := 0
  istep     := .notRunning
  wakePin   := true
  lineEn    := true
  now       := 0
  rxq       := []
  txlog     := []
  params    := Params.default
  inputs    := []
  hostData  := 0
  draws     := 0

end Sys2Proof.Machine
end

