-- ==== Sys2Proof/Machine/Flags.lean ====
section
/-! DEFINITION. The engine's only flags: BUSY, and the STATUS and RESULT words with the codes they show
(10_state.md R31, R32, R37; 30_encoding.md R94, R95). -/

namespace Sys2Proof.Machine

/-- The 4-bit code of an error (60_exceptions.md R220). -/
def errorCode : ErrorCode → BitVec 4
  | .errNone => 0
  | .p3MaxExceeded => 1
  | .p2MaxTimeout => 2
  | .badFormat => 3
  | .badTargetAddress => 4
  | .badSourceAddress => 5
  | .bufferOverflow => 6
  | .checksumMismatch => 7
  | .echoMismatch => 8

/-- The 4-bit code of a phase as STATUS shows it (30_encoding.md R95). -/
def phaseCode : Phase → BitVec 4
  | .idle => 0
  | .txGate => 1
  | .txWait => 2
  | .txPut => 3
  | .txEcho => 4
  | .rxAssemble => 5
  | .rxPeek => 6
  | .initWake => 7

/-- ISTEP's number (10_state.md R28). -/
def stepCode : InitStep → BitVec 3
  | .notRunning => 0
  | .wakeIdle => 1
  | .wakeLow => 2
  | .wakeHigh => 3
  | .sendStart => 4
  | .recvStart => 5
  | .sendSession => 6
  | .recvSession => 7

/-- BUSY, the Boolean `PHASE != IDLE` (10_state.md R32). -/
def State.busy (s : State) : Bool := s.phase != .idle

/-- KIND, `RESULT[11:8]` (30_encoding.md R94). -/
def resultKind : Result → BitVec 4
  | .none => 0
  | .finished => 1
  | .pending => 2
  | .error _ => 3
  | .bool _ => 4
  | .byte _ => 5
  | .errcode _ => 6

/-- VALUE, `RESULT[7:0]` (30_encoding.md R94). -/
def resultValue : Result → Byte
  | .none => 0
  | .finished => 0
  | .pending => 0
  | .error c => (errorCode c).setWidth 8
  | .bool b => if b then 1 else 0
  | .byte b => b
  | .errcode c => (errorCode c).setWidth 8

/-- The RESULT word (30_encoding.md R94). -/
def resultWord (r : Result) : Word := 0#20 ++ (resultKind r ++ resultValue r : BitVec 12)

/-- The STATUS word (30_encoding.md R95). -/
def statusWord (s : State) : Word :=
  0#21 ++ (stepCode s.istep ++ (phaseCode s.phase ++ (0#3 ++ BitVec.ofBool s.busy : BitVec 4) : BitVec 8) : BitVec 11)

end Sys2Proof.Machine
end

