-- ==== Sys2Proof/Machine/Operands.lean ====
section
/-! DEFINITION. The operand forms of the commands: a threshold, a byte count, a capacity and a buffer select
(30_encoding.md R89, R98), and the 9-bit length rule both framers use (00_scope.md R17). -/

namespace Sys2Proof.Machine

/-- A millisecond threshold in microseconds, "the product taken without truncation" (00_scope.md R17, 30_encoding.md
R98). -/
def micros (ms : Ms) : Nat := ms.toNat * 1000

/-- IMM16 as an unsigned count of bytes (R98). -/
def byteCount (imm : BitVec 16) : Nat := imm.toNat

/-- IMM16 as the 9-bit capacity RXCAP latches (10_state.md R27, R98). -/
def capacity (imm : BitVec 16) : Count := imm.setWidth 9

/-- The buffer BSEL selects: 0 = TXBUF, 1 = RXBUF (41_checksum.md R121). -/
def bufferOf (buf : BufSel) (s : State) : Memory :=
  match buf with
  | .tx => s.txbuf
  | .rx => s.rxbuf

/-- `len9(b) = zext_9(b) + 5` (00_scope.md R17, 30_encoding.md R84). -/
def len9 (b : Byte) : Count := b.setWidth 9 + 5

end Sys2Proof.Machine
end

