-- ==== Sys2Proof/Machine/Ops.lean ====
section
/-! DEFINITION. The named operations: buffers, the line, the timing window, the checksum, the validator's predicate,
starting and ending an operation, and raising an error, the engine's whole trap mechanism (60_exceptions.md R229). -/

namespace Sys2Proof.Machine

/-! ## Buffers (10_state.md R29, R30; assumption log 6) -/

/-- What a byte that nothing has written reads as: DESIGN CHOICE, log 6. -/
def unwrittenByte : Byte := 0

/-- `MemRead(offset, 1)` (00_scope.md R16). -/
def Memory.read : Memory → Nat → Byte
  | [], _ => unwrittenByte
  | (k, v) :: rest, a => if a = k then v else Memory.read rest a

/-- One more entry in front, unless it is what an unlisted offset reads as. -/
def Memory.cell (a : Nat) (b : Byte) (m : Memory) : Memory := if b = unwrittenByte then m else (a, b) :: m

/-- `MemWrite(offset, 1, b)` (00_scope.md R16), keeping the canonical form. -/
def Memory.write : Memory → Nat → Byte → Memory
  | [], a, b => Memory.cell a b []
  | (k, v) :: rest, a, b =>
    if a < k then Memory.cell a b ((k, v) :: rest)
    else if a = k then Memory.cell a b rest
    else (k, v) :: Memory.write rest a b

/-- Rising offsets from `lo` on, each an offset of a buffer, no entry equal to the unwritten byte. -/
def Memory.wfFrom : Nat → Memory → Bool
  | _, [] => true
  | lo, (k, v) :: rest => decide (lo ≤ k) && decide (k < bufSize) && (v != unwrittenByte) && Memory.wfFrom (k + 1) rest

/-- The canonical form of a buffer. -/
def Memory.wf (m : Memory) : Bool := Memory.wfFrom 0 m

/-- Bytes written one after another from an offset on. -/
def Memory.writeAll (m : Memory) (a : Nat) : List Byte → Memory
  | [] => m
  | b :: bs => Memory.writeAll (Memory.write m a b) (a + 1) bs

/-- The first `n` bytes of a buffer. -/
def Memory.bytes (m : Memory) (n : Nat) : List Byte := (List.range n).map (Memory.read m)

/-- A buffer's first `n` bytes all free values, the `i`-th drawn as number `d + i` (assumption log 8). -/
def Memory.drawn (d : Nat) : Nat → Memory
  | 0 => []
  | n + 1 => Memory.write (Memory.drawn d n) n (Config.anyByte (d + n))

/-- A buffer whose every byte is unspecified (10_state.md R43). -/
@[irreducible] def Memory.unspecified (d : Nat) : Memory := Memory.drawn d bufSize

/-! ## The checksum and the lengths (41_checksum.md R120, 30_encoding.md R84) -/

/-- `sum8(B, n)`, the sum of the first `n` bytes modulo 256 (R120). -/
def sum8 (m : Memory) : Nat → Byte
  | 0 => 0
  | n + 1 => sum8 m n + Memory.read m n

/-- The transmitter's length: "5 if format byte is `0x81`, else `request[3] + 5`" (R84, 43_request_transmitter.md
R140). -/
def requestLength (m : Memory) : Count := if Memory.read m 0 = 0x81 then 5 else len9 (Memory.read m 3)

/-! ## The validator's predicate (42_frame_validator.md R130) -/

/-- The request's service identifier (R131). -/
def serviceId (m : Memory) : Byte := if Memory.read m 0 = 0x81 then Memory.read m 3 else Memory.read m 4

/-- `want`, in 9 bits with no wrap (R132). -/
def wantedId (m : Memory) : Count := (serviceId m).setWidth 9 + 0x40

/-- `positive()`, the predicate on TXBUF and RXBUF (R130). -/
def State.positive (s : State) : Bool := decide ((Memory.read s.rxbuf 4).setWidth 9 = wantedId s.txbuf)

/-! ## The clock and the timing window (00_scope.md R14, 40_timing_window.md) -/

/-- A number of microseconds as a clock of `width` bits shows it, modulo 2^TIME_WIDTH (R14). -/
def wrapT (width n : Nat) : Time := n % 2 ^ width

/-- `sub_T(a, b) = (a - b) mod 2^TIME_WIDTH`, the wrap-safe difference of two clock samples (R17, 40_timing_window.md
R113). -/
def subT (width : Nat) (a b : Time) : Time := (((a : Int) - (b : Int)) % ((2 ^ width : Nat) : Int)).toNat

/-- `elapsed = sub_T(now, REF)` (00_scope.md R17). -/
def State.elapsed (s : State) : Time := subT s.params.timeWidth s.now s.ref

/-- `exceeds(ms)`: strictly more than `ms` milliseconds since REF (R112). -/
def State.exceeds (s : State) (ms : Ms) : Bool := decide (micros ms < s.elapsed)

/-- `waited(ms)`: at least `ms` milliseconds since DREF (45_ecu_initializer.md R193). -/
def State.waited (s : State) (ms : Ms) : Bool := decide (micros ms ≤ subT s.params.timeWidth s.now s.dref)

/-- `REF <- now` (10_state.md R21). -/
def State.resetWindow (s : State) : State := { s with ref := s.now }

/-! ## The line (00_scope.md R18, 20_memory.md R57) -/

/-- `LineAvail()`. -/
def State.lineAvail (s : State) : Nat := s.rxq.length

/-- `LineRead()`: the oldest byte and the state without it. It answers none exactly when `LineAvail()` is 0, where the
spec gives LineRead no step (93_implementation_defined.md U6), so matching on it is the test `LineAvail() >= 1`. -/
def State.lineRead (s : State) : Option (Byte × State) :=
  match s.rxq with
  | [] => none
  | b :: rest => some (b, { s with rxq := rest })

/-- `LineWrite(b)`. -/
def State.lineWrite (s : State) (b : Byte) : State := { s with txlog := s.txlog ++ [b] }

/-- IDX is the offset of a byte of a buffer. -/
def State.idxInBuffer (s : State) : Bool := decide (s.idx.toNat < bufSize)

/-- `TXBUF[IDX]`. -/
def State.txByte (s : State) : Byte := Memory.read s.txbuf s.idx.toNat

/-- `RXBUF[IDX] <- b`. -/
def State.storeRx (s : State) (b : Byte) : State := { s with rxbuf := Memory.write s.rxbuf s.idx.toNat b }

/-- `IDX <- IDX + 1`. -/
def State.nextIdx (s : State) : State := { s with idx := s.idx + 1 }

/-! ## Starting an operation -/

/-- The transmitter's first phase with a request of `len` bytes (43_request_transmitter.md R140). -/
def State.startTransmit (s : State) (len : Count) : State := { s with txlen := len, idx := 0, phase := .txGate }

/-- The receiver's first phase with a capacity of `cap` bytes (44_response_receiver.md R160). -/
def State.startReceive (s : State) (cap : Count) : State := { s with rxcap := cap, idx := 0, phase := .rxAssemble }

/-- A frame written from offset 0 on: its bytes and after them their checksum (30_encoding.md R83). -/
def Memory.writeFrame (m : Memory) (body : List Byte) : Memory :=
  Memory.write (Memory.writeAll m 0 body) body.length (sum8 (Memory.writeAll m 0 body) body.length)

/-- The start-communication request in TXBUF (45_ecu_initializer.md R194). -/
def State.loadStartRequest (s : State) : State :=
  { s with txbuf := Memory.writeFrame s.txbuf [0x81, s.params.ecuAddr, s.params.testerAddr, s.params.scSid] }

/-- The start-diagnostic-session request in TXBUF (45_ecu_initializer.md R196). -/
def State.loadSessionRequest (s : State) : State :=
  { s with
    txbuf := Memory.writeFrame s.txbuf [0x80, s.params.ecuAddr, s.params.testerAddr, 0x02, 0x10, 0x80] }

/-! ## Ending an operation (00_scope.md R19, 60_exceptions.md R229 and R235, 45_ecu_initializer.md R195) -/

/-- The RESULT an operation's outcome becomes (30_encoding.md R94). -/
def opResult : OpResult → Result
  | .finished => .finished
  | .pending => .pending
  | .error c => .error c

/-- `LAST_ERROR <- any` (R235; assumption log 9). -/
def State.spoilLastError (s : State) : State :=
  { s with lastError := Config.anyErrorCode s.draws, draws := s.draws + 1 }

/-- LAST_ERROR at the end of a fallible command: the raised code stands, any other ending leaves an unspecified one
(R235). -/
def State.settleLastError (s : State) (r : OpResult) : State :=
  match r with
  | .finished => s.spoilLastError
  | .pending => s.spoilLastError
  | .error _ => s

/-- `RESULT <- r; PHASE <- IDLE`. -/
def State.finish (s : State) (r : Result) : State := { s with result := r, phase := .idle }

/-- INITIALIZE ends with a Boolean: `RESULT <- (BOOL, b); ISTEP <- 0; PHASE <- IDLE` (45_ecu_initializer.md R195). -/
def State.finishInit (s : State) (b : Bool) : State :=
  { s with result := .bool b, istep := .notRunning, phase := .idle }

/-- INITIALIZE goes on to receive a response: `RXCAP <- INIT_RX_CAP; IDX <- 0; PHASE <- RX_ASSEMBLE` and the next ISTEP
(R195). -/
def State.receiveInInit (s : State) (next : InitStep) : State :=
  { s.startReceive s.params.initRxCap with istep := next }

/-- INITIALIZE goes on to send its second request (R195, R196). -/
def State.sendSessionInInit (s : State) : State :=
  { s.loadSessionRequest.startTransmit 7 with istep := .sendSession }

/-- `complete(r)` (00_scope.md R19): at ISTEP 0 the command ends, inside INITIALIZE R195 says what follows. ISTEP 1 to 3
have no arm there (assumption log 15). -/
def complete (r : OpResult) (s : State) : StepResult :=
  match s.istep with
  | .notRunning => .next ((s.settleLastError r).finish (opResult r))
  | .wakeIdle => .fault .noContinuation
  | .wakeLow => .fault .noContinuation
  | .wakeHigh => .fault .noContinuation
  | .sendStart =>
    if r = .finished then .next (s.receiveInInit .recvStart) else .next ((s.settleLastError r).finishInit false)
  | .recvStart =>
    if r = .finished ∧ s.positive then .next s.sendSessionInInit else .next ((s.settleLastError r).finishInit false)
  | .sendSession =>
    if r = .finished then .next (s.receiveInInit .recvSession) else .next ((s.settleLastError r).finishInit false)
  | .recvSession =>
    if r = .finished ∧ s.positive then .next (s.spoilLastError.finishInit true)
    else .next ((s.settleLastError r).finishInit false)

/-- `raise Error(c)`, the engine's whole trap mechanism: `LAST_ERROR <- c; complete(Error(c))` (60_exceptions.md R229).
There is no return from it: the engine is idle afterwards and accepts the next command (R234). -/
def raiseError (c : ErrorCode) (s : State) : StepResult := complete (.error c) { s with lastError := c }

/-! ## Reset (70_reset_and_hazards.md R250, 10_state.md R43) -/

/-- `rst`: every element R43 fixes at its value, every element it leaves unspecified a free value; the environment's
RXQ, TXLOG and `now` are not changed (assumption log 8). -/
def State.assertReset (s : State) : State :=
  { s with
    ref       := wrapT s.params.timeWidth (Config.anyTime s.draws)
    lastError := .errNone
    phase     := .idle
    idx       := Config.anyCount s.draws
    txlen     := Config.anyCount (s.draws + 1)
    total     := Config.anyCount (s.draws + 2)
    rxcap     := Config.anyCount (s.draws + 3)
    txbuf     := Memory.unspecified s.draws
    rxbuf     := Memory.unspecified (s.draws + bufSize)
    result    := .none
    dref      := wrapT s.params.timeWidth (Config.anyTime (s.draws + 1))
    istep     := .notRunning
    wakePin   := true
    lineEn    := true
    draws     := s.draws + 2 * bufSize }

end Sys2Proof.Machine
end

