-- ==== Sys2Proof/Machine/ChecksumCalculator.lean ====
section
/-! DEFINITION. The Checksum Calculator: CHECKSUM (41_checksum.md). -/

namespace Sys2Proof.Machine

/-- CHECKSUM buf, n: `RESULT <- (BYTE, sum8(B, n))` (R121). A count above 260 is a reserved word (30_encoding.md R92),
which the decoder already refuses; the same refusal here (assumption log 16). -/
def execChecksum (buf : BufSel) (len : BitVec 16) (s : State) : StepResult :=
  if byteCount len ≤ bufSize then .next { s with result := .byte (sum8 (bufferOf buf s) (byteCount len)) }
  else .refused (.reservedCommand .checksumLength)

end Sys2Proof.Machine
end

