-- ==== Sys2Proof/Machine/EcuInitializer.lean ====
section
/-! DEFINITION. The ECU Initializer: INITIALIZE and its wake-up phase (45_ecu_initializer.md). What follows the wake-up
is the transmitter's and the receiver's own phases, joined by `complete` (R195). -/

namespace Sys2Proof.Machine

/-- INITIALIZE, source step 1 (R191). -/
def execEcuInitialize (s : State) : StepResult :=
  .next { s.resetWindow with lineEn := false, wakePin := true, dref := s.now, istep := .wakeIdle, phase := .initWake }

/-- The wake-up pattern is over: the line is resumed with RXQ empty and the first request starts (R192, R194). -/
def resumeLine (s : State) : State :=
  { ({ s with lineEn := true, rxq := [] }.loadStartRequest.startTransmit 5) with istep := .sendStart }

/-- PHASE = INIT_WAKE (R192). At any other ISTEP the rule's "otherwise stay" holds. -/
def pollInitWake (s : State) : StepResult :=
  match s.istep with
  | .wakeIdle =>
    if s.waited s.params.wIdleMs then .next { s with wakePin := false, dref := s.now, istep := .wakeLow } else .next s
  | .wakeLow =>
    if s.waited s.params.wLowMs then .next { s with wakePin := true, dref := s.now, istep := .wakeHigh } else .next s
  | .wakeHigh => if s.waited s.params.wHighMs then .next (resumeLine s) else .next s
  | .notRunning => .next s
  | .sendStart => .next s
  | .recvStart => .next s
  | .sendSession => .next s
  | .recvSession => .next s

end Sys2Proof.Machine
end

