-- ==== Sys2Proof/Machine/FrameValidator.lean ====
section
/-! DEFINITION. The Frame Validator: IS_POSITIVE (42_frame_validator.md). -/

namespace Sys2Proof.Machine

/-- IS_POSITIVE: `RESULT <- (BOOL, 1 if zext_9(RXBUF[4]) = want else 0)` (R130). -/
def execIsPositive (s : State) : StepResult := .next { s with result := .bool s.positive }

end Sys2Proof.Machine
end

