-- ==== Sys2Proof/Machine/LastError.lean ====
section
/-! DEFINITION. The last-error accessor: GET_LAST_ERROR (46_last_error.md). -/

namespace Sys2Proof.Machine

/-- GET_LAST_ERROR: `RESULT <- (ERRCODE, LAST_ERROR)` (R210). -/
def execGetLastError (s : State) : StepResult := .next { s with result := .errcode s.lastError }

end Sys2Proof.Machine
end

