-- ==== Sys2Proof/Machine/RequestTransmitter.lean ====
section
/-! DEFINITION. The Request Transmitter: SEND_REQUEST and its four phases (43_request_transmitter.md). -/

namespace Sys2Proof.Machine

/-- SEND_REQUEST: `TXLEN <- ...; IDX <- 0; PHASE <- TX_GATE` (R140). -/
def execSendRequest (s : State) : StepResult := .next (s.startTransmit (requestLength s.txbuf))

/-- PHASE = TX_GATE (R141). -/
def pollTxGate (s : State) : StepResult :=
  if s.exceeds s.params.p3Max then raiseError .p3MaxExceeded s else .next { s with phase := .txWait }

/-- PHASE = TX_WAIT (R142). -/
def pollTxWait (s : State) : StepResult :=
  if s.exceeds s.params.p3Min then .next { s with phase := .txPut } else .next s

/-- PHASE = TX_PUT: `LineWrite(TXBUF[IDX]); REF <- now; PHASE <- TX_ECHO` (R143; assumption log 14). -/
def pollTxPut (s : State) : StepResult :=
  if s.idxInBuffer then .next { (s.lineWrite s.txByte).resetWindow with phase := .txEcho } else .fault .bufferOffset

/-- The echo window of byte IDX is over: `IDX <- IDX + 1`, then the next byte or FINISHED (R144, R145). -/
def echoWindowOver (s : State) : StepResult :=
  if s.nextIdx.idx = s.txlen then complete .finished s.nextIdx else .next { s.nextIdx with phase := .txPut }

/-- An echo byte has been read: a mismatch raises, "a matching echo changes nothing" (R144, R147; assumption log 14). -/
def checkEcho (e : Byte) (s : State) : StepResult :=
  if s.idxInBuffer then (if e ≠ s.txByte then raiseError .echoMismatch s else .next s) else .fault .bufferOffset

/-- PHASE = TX_ECHO: time first, then availability (R144, R153). -/
def pollTxEcho (s : State) : StepResult :=
  if s.exceeds s.params.p4Min then echoWindowOver s
  else
    match s.lineRead with
    | some (e, s1) => checkEcho e s1
    | none => .next s

end Sys2Proof.Machine
end

