-- ==== Sys2Proof/Machine/ResponseReceiver.lean ====
section
/-! DEFINITION. The Response Receiver: RECEIVE_RESPONSE and its two phases (44_response_receiver.md). -/

namespace Sys2Proof.Machine

/-- RECEIVE_RESPONSE cap: `RXCAP <- IMM16; IDX <- 0; PHASE <- RX_ASSEMBLE` (R160). A capacity outside 4 to 260 is a
reserved word (30_encoding.md R92), which the decoder already refuses; the same refusal here (assumption log 16). -/
def execReceiveResponse (cap : BitVec 16) (s : State) : StepResult :=
  if 4 ≤ byteCount cap ∧ byteCount cap ≤ bufSize then .next (s.startReceive (capacity cap))
  else .refused (.reservedCommand .responseCapacity)

/-- The check at IDX = 3: `TOTAL <- len9(b)`, and BUFFER_OVERFLOW when it is above RXCAP (R165). -/
def checkLength (b : Byte) (s : State) : StepResult :=
  if s.rxcap < len9 b then raiseError .bufferOverflow { s with total := len9 b }
  else .next { s.nextIdx with total := len9 b }

/-- The check of the final byte, IDX = TOTAL - 1 (R167). -/
def checkFinal (b : Byte) (s : State) : StepResult :=
  if b ≠ sum8 s.rxbuf (s.total.toNat - 1) then raiseError .checksumMismatch s
  else .next { s.nextIdx with phase := .rxPeek }

/-- `check(IDX, b)`, and `IDX <- IDX + 1` if no error was raised (R161 to R167). -/
def checkByte (b : Byte) (s : State) : StepResult :=
  if s.idx = 0 then (if b ≠ s.params.rxFormat then raiseError .badFormat s else .next s.nextIdx)
  else if s.idx = 1 then (if b ≠ s.params.testerAddr then raiseError .badTargetAddress s else .next s.nextIdx)
  else if s.idx = 2 then (if b ≠ s.params.ecuAddr then raiseError .badSourceAddress s else .next s.nextIdx)
  else if s.idx = 3 then checkLength b s
  else if s.idx.toNat + 1 = s.total.toNat then checkFinal b s
  else .next s.nextIdx

/-- A byte has been read: reset the window, store, check, in that order (R161, R168; assumption log 14). -/
def takeByte (b : Byte) (s : State) : StepResult :=
  if s.idxInBuffer then checkByte b (s.resetWindow.storeRx b) else .fault .bufferOffset

/-- PHASE = RX_ASSEMBLE: availability first, then the timeout (R161, R169). -/
def pollRxAssemble (s : State) : StepResult :=
  match s.lineRead with
  | some (b, s1) => takeByte b s1
  | none => if s.exceeds s.params.p2Max then raiseError .p2MaxTimeout s else .next s

/-- PHASE = RX_PEEK: nothing is read and the window is not reset (R170, R171). -/
def pollRxPeek (s : State) : StepResult :=
  if 1 ≤ s.lineAvail then complete .pending s
  else if s.exceeds s.params.p2Max then complete .finished s
  else .next s

end Sys2Proof.Machine
end

