-- ==== Sys2Proof/Machine/TimingWindow.lean ====
section
/-! DEFINITION. The Timing Window Tracker: TW_RESET and TW_ELAPSED (40_timing_window.md). -/

namespace Sys2Proof.Machine

/-- TW_RESET: `REF <- now; RESULT <- (NONE, 0)` (R110). -/
def execTwReset (s : State) : StepResult := .next { s.resetWindow with result := .none }

/-- TW_ELAPSED ms: `RESULT <- (BOOL, 1 if sub_T(now, REF) > ms * 1000 else 0)` (R111). -/
def execTwElapsed (ms : Ms) (s : State) : StepResult := .next { s with result := .bool (s.exceeds ms) }

end Sys2Proof.Machine
end

