-- ==== Sys2Proof/Machine/Dispatch.lean ====
section
/-! DEFINITION. What each command does in the poll step in which it is issued (20_memory.md R63), one arm per command. -/

namespace Sys2Proof.Machine

def exec (i : Instr) (s : State) : Host.Outcome State Fault Refusal :=
  match i with
  | .twReset => Sys2Proof.Machine.execTwReset s
  | .twElapsed ms => Sys2Proof.Machine.execTwElapsed ms s
  | .checksum buf len => Sys2Proof.Machine.execChecksum buf len s
  | .isPositive => Sys2Proof.Machine.execIsPositive s
  | .sendRequest => Sys2Proof.Machine.execSendRequest s
  | .receiveResponse cap => Sys2Proof.Machine.execReceiveResponse cap s
  | .getLastError => Sys2Proof.Machine.execGetLastError s
  | .ecuInitialize => Sys2Proof.Machine.execEcuInitialize s

end Sys2Proof.Machine
end

