-- ==== Sys2Proof/Machine/Poll.lean ====
section
/-! DEFINITION. One poll step of the engine: the single transition its PHASE gives (00_scope.md R8, 10_state.md R23). -/

namespace Sys2Proof.Machine

/-- A poll step in which no command is issued; in IDLE it does nothing (R8). -/
def pollStep (s : State) : StepResult :=
  match s.phase with
  | .idle => .next s
  | .txGate => pollTxGate s
  | .txWait => pollTxWait s
  | .txPut => pollTxPut s
  | .txEcho => pollTxEcho s
  | .rxAssemble => pollRxAssemble s
  | .rxPeek => pollRxPeek s
  | .initWake => pollInitWake s

end Sys2Proof.Machine
end

