-- ==== Sys2Proof/Machine/Port.lean ====
section
/-! DEFINITION. The environment's moves: the host register map (20_memory.md R51, R54, R55, R63, R66, R69), the line and
the clock (00_scope.md R9), `rst` (70_reset_and_hazards.md R250), and which of them or of the poll steps comes next
(assumption logs 1 and 2). -/

namespace Sys2Proof.Machine

/-- What a host address names (R51, R69). -/
inductive HostTarget where
  | cmd
  | status
  | result
  | tx (i : Nat)
  | rx (i : Nat)
  | reserved
  deriving DecidableEq, Repr

/-- The register map of R51: CMD 0x000, STATUS 0x004, RESULT 0x008, TXBUF from 0x100, RXBUF from 0x300. -/
def hostTarget (addr : Nat) : HostTarget :=
  if addr = 0x000 then .cmd
  else if addr = 0x004 then .status
  else if addr = 0x008 then .result
  else if 0x100 ≤ addr ∧ addr < 0x100 + bufSize then .tx (addr - 0x100)
  else if 0x300 ≤ addr ∧ addr < 0x300 + bufSize then .rx (addr - 0x300)
  else .reserved

/-- A write of CMD: refused while busy, otherwise the word is decoded and the command runs in this same poll step
(R63, 30_encoding.md R92). -/
def issueCommand (w : Word) (s : State) : StepResult :=
  if s.busy then .refused .busyCommand
  else
    match decode w with
    | .ok i => exec i s
    | .error r => .refused (.reservedCommand r)

/-- A word write: CMD issues; STATUS and RESULT ignore it (R69); any other address is reserved for a word (R55). -/
def hostWriteWord (addr : Nat) (w : Word) (s : State) : StepResult :=
  match hostTarget addr with
  | .cmd => issueCommand w s
  | .status => .next s
  | .result => .next s
  | .tx _ => .next s
  | .rx _ => .next s
  | .reserved => .next s

/-- A byte write: a buffer byte while idle, refused while busy (R51, R66); reserved addresses ignore it (R69); the word
registers have no byte access (R54). -/
def hostWriteByte (addr : Nat) (b : Byte) (s : State) : StepResult :=
  match hostTarget addr with
  | .cmd => .refused .mixedWidthAccess
  | .status => .refused .mixedWidthAccess
  | .result => .refused .mixedWidthAccess
  | .tx i => if s.busy then .refused .busyBufferWrite else .next { s with txbuf := Memory.write s.txbuf i b }
  | .rx i => if s.busy then .refused .busyBufferWrite else .next { s with rxbuf := Memory.write s.rxbuf i b }
  | .reserved => .next s

/-- What a word read returns: STATUS and RESULT at any time (R66), 0 from CMD and from reserved addresses (R55, R69). -/
def hostWordAt (addr : Nat) (s : State) : Word :=
  match hostTarget addr with
  | .cmd => 0
  | .status => statusWord s
  | .result => resultWord s.result
  | .tx _ => 0
  | .rx _ => 0
  | .reserved => 0

/-- A word read has no effect but its answer (20_memory.md R56). -/
def hostReadWord (addr : Nat) (s : State) : StepResult := .next { s with hostData := hostWordAt addr s }

/-- A read of a buffer byte: the byte while idle, a free value while busy (R66; assumption log 12). -/
def readBuffer (m : Memory) (i : Nat) (s : State) : StepResult :=
  if s.busy then .next { s with hostData := (Config.anyByte s.draws).setWidth 32, draws := s.draws + 1 }
  else .next { s with hostData := (Memory.read m i).setWidth 32 }

/-- A byte read (R51, R66, R69; R54 for the word registers). -/
def hostReadByte (addr : Nat) (s : State) : StepResult :=
  match hostTarget addr with
  | .cmd => .refused .mixedWidthAccess
  | .status => .refused .mixedWidthAccess
  | .result => .refused .mixedWidthAccess
  | .tx i => readBuffer s.txbuf i s
  | .rx i => readBuffer s.rxbuf i s
  | .reserved => .next { s with hostData := 0 }

/-- Bytes arrive on the line: appended to RXQ while LINE_EN is 1, lost while it is 0 (10_state.md R34, R40; assumption
log 18). -/
def lineArrive (bs : List Byte) (s : State) : State := if s.lineEn then { s with rxq := s.rxq ++ bs } else s

/-- The clock advances by `d` microseconds, "modulo 2^TIME_WIDTH" (00_scope.md R9). -/
def State.advance (s : State) (d : Nat) : State := { s with now := wrapT s.params.timeWidth (s.now + d) }

/-- One listed move. -/
def applyInput (m : Input) (s : State) : StepResult :=
  match m with
  | .poll => pollStep s
  | .advance d => .next (s.advance d)
  | .arrive bs => .next (lineArrive bs s)
  | .writeWord addr w => hostWriteWord addr w s
  | .writeByte addr b => hostWriteByte addr b s
  | .readWord addr => hostReadWord addr s
  | .readByte addr => hostReadByte addr s
  | .rst => .next s.assertReset

/-- The clock moves on by an unknown POLL_GAP before a poll step that no input places (00_scope.md R8; log 2). -/
def State.gap (s : State) : State := { s.advance (Config.pollGap s.draws) with draws := s.draws + 1 }

/-- The next transition: the oldest listed move, or a poll step once none is listed (assumption logs 1 and 2). -/
def nextTransition (s : State) : StepResult :=
  match s.inputs with
  | [] => pollStep s.gap
  | m :: rest => applyInput m { s with inputs := rest }

/-- Where the engine stands after an input it refused: the input is gone and nothing else has changed, so a running
command goes on (20_memory.md R63, R66; 30_encoding.md R92; assumption log 13). -/
def State.afterRefusal (s : State) : State := { s with inputs := s.inputs.tail }

/-- The host's write of a command word to CMD as the next move of an idle engine (assumption log 17). -/
def State.placeCommand (s : State) (w : Word) : State :=
  { s with phase := .idle, inputs := .writeWord 0x000 w :: s.inputs }

end Sys2Proof.Machine
end

