-- ==== Sys2Proof/Machine/Step.lean ====
section
/-! DEFINITION. One step of the machine, and the placing of a command word where the next step takes it. -/

namespace Sys2Proof.Machine

/-- One step: the oldest listed move of the environment, or a poll step (00_scope.md R7 to R9). -/
def step (s : State) : Host.Outcome State Fault Refusal := nextTransition s

/-- `s` with the command word `w` as the next word the host writes to CMD, the engine idle (assumption log 17). -/
def State.withFetchWord (s : State) (nbits w : Nat) : State := s.placeCommand (BitVec.ofNat 32 (w % 2 ^ nbits))

end Sys2Proof.Machine
end

