-- ==== Sys2Proof/Safety.lean ====
section
/-! DEFINITION. What counts as a safe run: the invariant of the engine, what the buffers and TXLOG hold while a frame is
sent or received, the measure by which a command ends, and the fair runs. Claims are stated in these terms. -/

namespace Sys2Proof.Machine

/-- A phase of the transmitter (10_state.md R23). -/
def Phase.sending : Phase → Bool
  | .txGate => true
  | .txWait => true
  | .txPut => true
  | .txEcho => true
  | .idle => false
  | .rxAssemble => false
  | .rxPeek => false
  | .initWake => false

/-- A phase of the receiver (10_state.md R23). -/
def Phase.receiving : Phase → Bool
  | .rxAssemble => true
  | .rxPeek => true
  | .idle => false
  | .txGate => false
  | .txWait => false
  | .txPut => false
  | .txEcho => false
  | .initWake => false

/-- The pairs (PHASE, ISTEP) the engine can be in: INITIALIZE's steps go with the phases of what each runs
(10_state.md R23, R28, R36). -/
def legalSequencing : Phase → InitStep → Bool
  | .idle, i => i == .notRunning
  | .txGate, i => i == .notRunning || i == .sendStart || i == .sendSession
  | .txWait, i => i == .notRunning || i == .sendStart || i == .sendSession
  | .txPut, i => i == .notRunning || i == .sendStart || i == .sendSession
  | .txEcho, i => i == .notRunning || i == .sendStart || i == .sendSession
  | .rxAssemble, i => i == .notRunning || i == .recvStart || i == .recvSession
  | .rxPeek, i => i == .notRunning || i == .recvStart || i == .recvSession
  | .initWake, i => i == .wakeIdle || i == .wakeLow || i == .wakeHigh

/-- `now`, REF and DREF fit TIME_WIDTH bits (10_state.md R21, R33, R40; 00_scope.md R14). -/
def ClockFits (s : State) : Prop :=
  s.now < 2 ^ s.params.timeWidth ∧ s.ref < 2 ^ s.params.timeWidth ∧ s.dref < 2 ^ s.params.timeWidth

/-- What the received header bytes satisfy once IDX has passed them (44_response_receiver.md R162 to R165, R176). -/
structure HeaderAccepted (s : State) : Prop where
  format : 1 ≤ s.idx.toNat → Memory.read s.rxbuf 0 = s.params.rxFormat
  target : 2 ≤ s.idx.toNat → Memory.read s.rxbuf 1 = s.params.testerAddr
  source : 3 ≤ s.idx.toNat → Memory.read s.rxbuf 2 = s.params.ecuAddr
  length : 4 ≤ s.idx.toNat → s.total = len9 (Memory.read s.rxbuf 3) ∧ s.total ≤ s.rxcap

/-- The invariant of the engine: the parameters are usable, the times fit TIME_WIDTH bits (00_scope.md R14), both buffers
keep their canonical form, PHASE and ISTEP belong together, the outputs show where INITIALIZE is (10_state.md R34), IDX
stays inside the frame being sent or received (R24 to R27), and a frame under observation has passed every check
(44_response_receiver.md R176). -/
structure Inv (s : State) : Prop where
  params_wf : s.params.wf = true
  clock : ClockFits s
  txbuf_wf : Memory.wf s.txbuf = true
  rxbuf_wf : Memory.wf s.rxbuf = true
  sequencing : legalSequencing s.phase s.istep = true
  line : s.lineEn = (s.phase != .initWake)
  pin : s.wakePin = (s.istep != .wakeLow)
  starting : s.phase = .txGate ∨ s.phase = .txWait → s.idx = 0
  sending : s.phase.sending = true → s.txlen = requestLength s.txbuf ∧ s.idx < s.txlen
  receiving : s.phase.receiving = true → 4 ≤ s.rxcap.toNat ∧ s.rxcap.toNat ≤ bufSize ∧ HeaderAccepted s
  assembling : s.phase = .rxAssemble → s.idx.toNat ≤ 3 ∨ s.idx < s.total
  peeking : s.phase = .rxPeek →
    s.idx = s.total ∧ 4 ≤ s.idx.toNat ∧
      Memory.read s.rxbuf (s.total.toNat - 1) = sum8 s.rxbuf (s.total.toNat - 1)

/-- The start-communication request as bytes (45_ecu_initializer.md R194). -/
def startRequest (p : Params) : List Byte :=
  [0x81, p.ecuAddr, p.testerAddr, p.scSid, 0x81 + p.ecuAddr + p.testerAddr + p.scSid]

/-- The start-diagnostic-session request as bytes (45_ecu_initializer.md R196). -/
def sessionRequest (p : Params) : List Byte :=
  [0x80, p.ecuAddr, p.testerAddr, 0x02, 0x10, 0x80, 0x80 + p.ecuAddr + p.testerAddr + 0x02 + 0x10 + 0x80]

/-- How many bytes of the request being sent have been written: IDX before a TX_PUT, IDX + 1 in an echo window. -/
def State.sentCount (s : State) : Nat :=
  match s.phase with
  | .txPut => s.idx.toNat
  | .txEcho => s.idx.toNat + 1
  | .idle => 0
  | .txGate => 0
  | .txWait => 0
  | .rxAssemble => 0
  | .rxPeek => 0
  | .initWake => 0

/-- TXLOG ends with what the running command has sent so far: the bytes of TXBUF already written (20_memory.md R60), and
inside INITIALIZE its first request whole before them (45_ecu_initializer.md R197). TXBUF holds the request that
INITIALIZE is sending or whose response it awaits. -/
structure SentSoFar (s : State) : Prop where
  current : Memory.bytes s.txbuf s.sentCount <:+ s.txlog
  first_loaded : s.istep = .sendStart ∨ s.istep = .recvStart →
    s.txlen = 5 ∧ Memory.bytes s.txbuf 5 = startRequest s.params
  first_sent : s.istep = .recvStart → startRequest s.params <:+ s.txlog
  second_loaded : s.istep = .sendSession ∨ s.istep = .recvSession →
    s.txlen = 7 ∧ Memory.bytes s.txbuf 7 = sessionRequest s.params
  second_current : s.istep = .sendSession → startRequest s.params ++ Memory.bytes s.txbuf s.sentCount <:+ s.txlog
  both_sent : s.istep = .recvSession → startRequest s.params ++ sessionRequest s.params <:+ s.txlog

/-- RXBUF holds a frame the receiver accepts: header, length and checksum (44_response_receiver.md R176). -/
structure FrameAccepted (s : State) : Prop where
  format : Memory.read s.rxbuf 0 = s.params.rxFormat
  target : Memory.read s.rxbuf 1 = s.params.testerAddr
  source : Memory.read s.rxbuf 2 = s.params.ecuAddr
  length : s.total.toNat = (Memory.read s.rxbuf 3).toNat + 5
  fits : s.total ≤ s.rxcap
  checksum : Memory.read s.rxbuf (s.total.toNat - 1) = sum8 s.rxbuf (s.total.toNat - 1)

/-- The poll steps still to come in the running transmitter or receiver operation, each wait counted once. -/
def phaseRank (s : State) : Nat :=
  match s.phase with
  | .idle => 0
  | .txGate => 2 * s.txlen.toNat + 3
  | .txWait => 2 * s.txlen.toNat + 2
  | .txPut => 2 * (s.txlen.toNat - s.idx.toNat) + 1
  | .txEcho => 2 * (s.txlen.toNat - s.idx.toNat)
  | .rxAssemble => 2 + (bufSize - s.idx.toNat)
  | .rxPeek => 1
  | .initWake => 0

/-- The poll steps of the later steps of a running INITIALIZE, each operation counted at its longest. -/
def stepRank : InitStep → Nat
  | .notRunning => 0
  | .recvSession => 0
  | .sendSession => 300
  | .recvStart => 900
  | .sendStart => 1200
  | .wakeHigh => 1800
  | .wakeLow => 1801
  | .wakeIdle => 1802

/-- A bound on the poll steps, waits counted once, after which the running command has ended (70_reset_and_hazards.md
R270). -/
def State.rank (s : State) : Nat := stepRank s.istep + phaseRank s

/-- The wait of the present phase is over at this poll step, or the phase has none (43_request_transmitter.md R141 to
R144, 44_response_receiver.md R161 and R170, 45_ecu_initializer.md R192). -/
def State.waitOver (s : State) : Bool :=
  match s.phase with
  | .idle => false
  | .txGate => true
  | .txWait => s.exceeds s.params.p3Min
  | .txPut => true
  | .txEcho => s.exceeds s.params.p4Min
  | .rxAssemble => decide (1 ≤ s.lineAvail) || s.exceeds s.params.p2Max
  | .rxPeek => decide (1 ≤ s.lineAvail) || s.exceeds s.params.p2Max
  | .initWake =>
    match s.istep with
    | .wakeIdle => s.waited s.params.wIdleMs
    | .wakeLow => s.waited s.params.wLowMs
    | .wakeHigh => s.waited s.params.wHighMs
    | .notRunning => false
    | .sendStart => false
    | .recvStart => false
    | .sendSession => false
    | .recvSession => false

/-- The state in which the poll step of the next step is taken, with the `now` it samples; none when the next step is a
move of the environment (00_scope.md R8). -/
def State.atPoll (s : State) : Option State :=
  match s.inputs with
  | [] => some s.gap
  | .poll :: rest => some { s with inputs := rest }
  | .advance _ :: _ => none
  | .arrive _ :: _ => none
  | .writeWord _ _ :: _ => none
  | .writeByte _ _ :: _ => none
  | .readWord _ :: _ => none
  | .readByte _ :: _ => none
  | .rst :: _ => none

/-- One step of a run: the machine's step, an input that is refused leaving the engine as it was (92_eei_decisions.md
D21), after which the environment may list more moves (00_scope.md R7, R9). -/
inductive Follows (s : State) : State → Prop where
  | stepped (t : State) (more : List Input) (h : step s = .next t) : Follows s { t with inputs := t.inputs ++ more }
  | refused (r : Refusal) (more : List Input) (h : step s = .refused r) :
      Follows s { s.afterRefusal with inputs := s.afterRefusal.inputs ++ more }

/-- An endless run of the engine in its environment. -/
def Run (ρ : Nat → State) : Prop := ∀ n, Follows (ρ n) (ρ (n + 1))

/-- Fairness: "while a command is in progress, poll steps keep occurring and `now` keeps advancing, so that every wait
whose exit condition is a threshold on elapsed time is eventually left" (00_scope.md R10; assumption log 19). -/
structure Fair (ρ : Nat → State) : Prop where
  /-- From a busy state on, a poll step comes, or the command has ended by then. -/
  polls : ∀ n, (ρ n).phase ≠ .idle → ∃ m, n ≤ m ∧ ((ρ m).phase = .idle ∨ (ρ m).atPoll ≠ none)
  /-- From a busy state on, the clock passes any threshold from any reference time at some poll step, or the command has
  ended by then. -/
  clock : ∀ n, (ρ n).phase ≠ .idle → ∀ (r : Time) (ms : Ms), ∃ m, n ≤ m ∧
    ((ρ m).phase = .idle ∨ ∃ u, (ρ m).atPoll = some u ∧ ms.toNat * 1000 < subT u.params.timeWidth u.now r)

/-- The outcome with a change made to its next state, if it has one. -/
def onNext (f : State → State) : StepResult → StepResult
  | .next t => .next (f t)
  | .fault r => .fault r
  | .refused r => .refused r

end Sys2Proof.Machine
end

