-- ==== Sys2Proof/Certificates/Slice0/Obligations.lean ====
section
/-! DEFINITION. The statements for the provers, in the order of OBLIGATIONS.json. Each docstring names the rule of spec/
it rests on, and says where a clause is the model's own choice (with its assumption log entry). -/

open Sys2Proof Sys2Proof.Machine

namespace Sys2Proof.Claims

/-- "elapsed > ms * 1000", the elapsed time being (now - REF) mod 2^TIME_WIDTH (00_scope.md R14, R17;
40_timing_window.md R112), written out. -/
abbrev windowPassed (s : State) (ms : Ms) : Prop :=
  (ms.toNat * 1000 : Int) < ((s.now : Int) - s.ref) % ((2 ^ s.params.timeWidth : Nat) : Int)

/-- `sub_T(now, DREF) >= ms * 1000` (45_ecu_initializer.md R193), written out. -/
abbrev delayPassed (s : State) (ms : Ms) : Prop :=
  (ms.toNat * 1000 : Int) ≤ ((s.now : Int) - s.dref) % ((2 ^ s.params.timeWidth : Nat) : Int)

/-- The state after one byte has been read from the queue, the window reset and the byte stored at RXBUF[IDX]
(44_response_receiver.md R161, R168), before the byte is checked. -/
abbrev afterStore (s : State) (b : Byte) (rest : List Byte) : State :=
  { s with rxq := rest, ref := s.now, rxbuf := Memory.write s.rxbuf s.idx.toNat b }

/-- The conditions of 30_encoding.md R92 on a command word alone, on its opcode, its 24 bits below it and its immediate. -/
abbrev reservedFields (op low imm : Nat) : Prop :=
  op = 0 ∨ 9 ≤ op ∨
    ((op = 1 ∨ op = 4 ∨ op = 5 ∨ op = 7 ∨ op = 8) ∧ low ≠ 0) ∨
    ((op = 2 ∨ op = 6) ∧ 2 ^ 16 ≤ low) ∨
    (op = 3 ∧ 2 ^ 17 ≤ low) ∨
    (op = 3 ∧ 260 < imm) ∨
    (op = 6 ∧ (imm < 4 ∨ 260 < imm))

/-- A reserved word (30_encoding.md R89, R92), on the number the word is. -/
abbrev reservedWord (w : Word) : Prop := reservedFields (w.toNat / 2 ^ 24) (w.toNat % 2 ^ 24) (w.toNat % 2 ^ 16)

/-- A host address of the table of 20_memory.md R51. -/
abbrev mappedAddress (a : Nat) : Prop :=
  a = 0x000 ∨ a = 0x004 ∨ a = 0x008 ∨ (0x100 ≤ a ∧ a ≤ 0x203) ∨ (0x300 ≤ a ∧ a ≤ 0x403)

/-- KIND and VALUE of the table in 30_encoding.md R94 with the codes of 60_exceptions.md R220. -/
def errorNumber : ErrorCode → Nat
  | .errNone => 0
  | .p3MaxExceeded => 1
  | .p2MaxTimeout => 2
  | .badFormat => 3
  | .badTargetAddress => 4
  | .badSourceAddress => 5
  | .bufferOverflow => 6
  | .checksumMismatch => 7
  | .echoMismatch => 8

/-- The RESULT word as a number: 256 * KIND + VALUE (30_encoding.md R94). -/
def resultNumber : Result → Nat
  | .none => 0x000
  | .finished => 0x100
  | .pending => 0x200
  | .error c => 0x300 + errorNumber c
  | .bool b => 0x400 + (if b then 1 else 0)
  | .byte b => 0x500 + b.toNat
  | .errcode c => 0x600 + errorNumber c

/-- The phase codes of 30_encoding.md R95. -/
def phaseNumber : Phase → Nat
  | .idle => 0
  | .txGate => 1
  | .txWait => 2
  | .txPut => 3
  | .txEcho => 4
  | .rxAssemble => 5
  | .rxPeek => 6
  | .initWake => 7

/-- The numbers of ISTEP (10_state.md R28). -/
def stepNumber : InitStep → Nat
  | .notRunning => 0
  | .wakeIdle => 1
  | .wakeLow => 2
  | .wakeHigh => 3
  | .sendStart => 4
  | .recvStart => 5
  | .sendSession => 6
  | .recvSession => 7

end Sys2Proof.Claims

open Sys2Proof.Claims

/-! ## The command word -/

/-- Words written out from 30_encoding.md R89 to R91 decode to the commands they stand for. -/
def Obligations.OpcodeMapWordsDecode : Prop :=
  decode 0x01000000 = .ok .twReset ∧ decode 0x02000037 = .ok (.twElapsed 55) ∧
  decode 0x03000004 = .ok (.checksum .tx 4) ∧ decode 0x03010005 = .ok (.checksum .rx 5) ∧
  decode 0x04000000 = .ok .isPositive ∧ decode 0x05000000 = .ok .sendRequest ∧
  decode 0x06000104 = .ok (.receiveResponse 260) ∧ decode 0x07000000 = .ok .getLastError ∧
  decode 0x08000000 = .ok .ecuInitialize

/-- Decoding the word of a well-formed command gives the command back, for every command and every operand. -/
def Obligations.DecodeOfEncode : Prop := ∀ i : Instr, i.wf = true → decode (encode i) = .ok i

/-- A word that decodes is the word of the well-formed command it decodes to, so every word has at most one meaning. -/
def Obligations.DecodedWordsAreEncodings : Prop :=
  ∀ (w : Word) (i : Instr), decode w = .ok i → i.wf = true ∧ encode i = w

/-- R92: a word written to CMD is refused exactly when it is reserved or the engine is busy; any other word is a command
that completes its issuing step. That the state after a refused input is the state without that input is how the model
reads "changes no state": assumption log 13. -/
def Obligations.ReservedWordsAreRefused : Prop :=
  ∀ (s : State) (w : Word) (rest : List Input), s.inputs = .writeWord 0x000 w :: rest →
    (s.phase ≠ .idle → step s = .refused .busyCommand) ∧
    (s.phase = .idle → reservedWord w → ∃ r, step s = .refused (.reservedCommand r)) ∧
    (s.phase = .idle → ¬ reservedWord w →
      ∃ i t, decode w = .ok i ∧ step s = exec i { s with inputs := rest } ∧ step s = .next t) ∧
    s.afterRefusal = { s with inputs := rest }

/-! ## The step -/

/-- R63: a CMD write while idle runs the decoded command in that same step, a CMD write while busy is refused, and the
command sets PHASE to its first phase or leaves it. -/
def Obligations.CommandWriteRunsDecodedCommand : Prop :=
  (∀ (s : State) (w : Word) (rest : List Input) (i : Instr), s.inputs = .writeWord 0x000 w :: rest → s.phase = .idle →
    decode w = .ok i → step s = exec i { s with inputs := rest }) ∧
  (∀ (s : State) (w : Word) (rest : List Input), s.inputs = .writeWord 0x000 w :: rest → s.phase ≠ .idle →
    step s = .refused .busyCommand) ∧
  (∀ (i : Instr) (s t : State), exec i s = .next t →
    t.phase = match i with
      | .sendRequest => .txGate
      | .receiveResponse _ => .rxAssemble
      | .ecuInitialize => .initWake
      | .twReset => s.phase
      | .twElapsed _ => s.phase
      | .checksum _ _ => s.phase
      | .isPositive => s.phase
      | .getLastError => s.phase)

/-- R8, R9: a listed poll is one poll step, and a poll step in IDLE does nothing; a listed clock advance moves `now` by that
amount modulo 2^TIME_WIDTH; listed bytes are appended to RXQ in their order while LINE_EN is 1 (R34, R40). Nothing else
changes. That moves are listed is assumption log 1; that bytes arriving while LINE_EN is 0 are lost is assumption log 18;
that with no listed move the step is a poll step after a free clock advance is assumption log 2. -/
def Obligations.PollsClockAndLineMovesHappenAsListed : Prop :=
  (∀ (s : State) (rest : List Input), s.inputs = .poll :: rest → step s = pollStep { s with inputs := rest }) ∧
  (∀ s : State, s.phase = .idle → pollStep s = .next s) ∧
  (∀ s : State, s.inputs = [] →
    step s = pollStep { s with
      now := (s.now + Config.pollGap s.draws) % 2 ^ s.params.timeWidth, draws := s.draws + 1 }) ∧
  (∀ (s : State) (d : Nat) (rest : List Input), s.inputs = .advance d :: rest →
    step s = .next { s with inputs := rest, now := (s.now + d) % 2 ^ s.params.timeWidth }) ∧
  (∀ (s : State) (bs : List Byte) (rest : List Input), s.inputs = .arrive bs :: rest →
    (s.lineEn = true → step s = .next { s with inputs := rest, rxq := s.rxq ++ bs }) ∧
    (s.lineEn = false → step s = .next { s with inputs := rest }))

/-! ## The host port -/

/-- R51: a byte the idle host writes to TXBUF[i] or RXBUF[i] is what it then reads there, every other byte of that buffer
reads as before, and nothing else of the engine changes. -/
def Obligations.HostBufferWriteThenRead : Prop :=
  ∀ (s : State) (i j : Nat) (b : Byte), s.phase = .idle → i < 260 → j < 260 →
    (Memory.wf s.txbuf = true → ∃ t u,
      step { s with inputs := [.writeByte (0x100 + i) b, .readByte (0x100 + j)] } = .next t ∧ step t = .next u ∧
      u = { s with
        txbuf := u.txbuf, inputs := [], hostData := (if j = i then b else Memory.read s.txbuf j).setWidth 32 }) ∧
    (Memory.wf s.rxbuf = true → ∃ t u,
      step { s with inputs := [.writeByte (0x300 + i) b, .readByte (0x300 + j)] } = .next t ∧ step t = .next u ∧
      u = { s with
        rxbuf := u.rxbuf, inputs := [], hostData := (if j = i then b else Memory.read s.rxbuf j).setWidth 32 })

/-- R66: while a command runs a host write of a buffer byte is refused, a host read of one changes nothing of the engine
and returns an unspecified byte, and STATUS and RESULT can be read. -/
def Obligations.BusyBuffersBelongToTheEngine : Prop :=
  ∀ (s : State) (rest : List Input) (i : Nat), s.phase ≠ .idle → i < 260 →
    (∀ b, step { s with inputs := .writeByte (0x100 + i) b :: rest } = .refused .busyBufferWrite) ∧
    (∀ b, step { s with inputs := .writeByte (0x300 + i) b :: rest } = .refused .busyBufferWrite) ∧
    (∃ b : Byte, step { s with inputs := .readByte (0x100 + i) :: rest } =
      .next { s with inputs := rest, hostData := b.setWidth 32, draws := s.draws + 1 }) ∧
    (∃ b : Byte, step { s with inputs := .readByte (0x300 + i) :: rest } =
      .next { s with inputs := rest, hostData := b.setWidth 32, draws := s.draws + 1 }) ∧
    (∃ w, step { s with inputs := .readWord 0x004 :: rest } = .next { s with inputs := rest, hostData := w }) ∧
    (∃ w, step { s with inputs := .readWord 0x008 :: rest } = .next { s with inputs := rest, hostData := w })

/-- R95: what a read of STATUS returns, at any time: BUSY in bit 0, the phase code in bits 7 to 4, ISTEP in bits 10 to 8,
every other bit zero. -/
def Obligations.StatusReadShowsPhaseAndStep : Prop :=
  ∀ (s : State) (rest : List Input), s.inputs = .readWord 0x004 :: rest →
    ∃ w : Word, step s = .next { s with inputs := rest, hostData := w } ∧
      w.toNat = (if s.phase = .idle then 0 else 1) + 16 * phaseNumber s.phase + 256 * stepNumber s.istep

/-- R94: what a read of RESULT returns, at any time: KIND in bits 11 to 8, VALUE in bits 7 to 0, every other bit zero. -/
def Obligations.ResultReadShowsKindAndValue : Prop :=
  ∀ (s : State) (rest : List Input), s.inputs = .readWord 0x008 :: rest →
    ∃ w : Word, step s = .next { s with inputs := rest, hostData := w } ∧ w.toNat = resultNumber s.result

/-- R69: an address that is not in the table ignores a write and reads 0; CMD reads 0; STATUS and RESULT ignore a write.
R55: a word access to a buffer byte's address is an access to a reserved address. These accesses have no other effect. A
byte access to CMD, STATUS or RESULT, which R54 says does not exist, is refused: the model's choice, assumption log 11. -/
def Obligations.AccessesOutsideTheRegisterMap : Prop :=
  ∀ (s : State) (rest : List Input),
    (∀ a, ¬ mappedAddress a →
      (∀ w, step { s with inputs := .writeWord a w :: rest } = .next { s with inputs := rest }) ∧
      (∀ b, step { s with inputs := .writeByte a b :: rest } = .next { s with inputs := rest }) ∧
      step { s with inputs := .readWord a :: rest } = .next { s with inputs := rest, hostData := 0 } ∧
      step { s with inputs := .readByte a :: rest } = .next { s with inputs := rest, hostData := 0 }) ∧
    (∀ a, mappedAddress a → a ≠ 0x000 → a ≠ 0x004 → a ≠ 0x008 →
      (∀ w, step { s with inputs := .writeWord a w :: rest } = .next { s with inputs := rest }) ∧
      step { s with inputs := .readWord a :: rest } = .next { s with inputs := rest, hostData := 0 }) ∧
    (∀ a, a = 0x000 ∨ a = 0x004 ∨ a = 0x008 →
      (∀ b, step { s with inputs := .writeByte a b :: rest } = .refused .mixedWidthAccess) ∧
      step { s with inputs := .readByte a :: rest } = .refused .mixedWidthAccess) ∧
    step { s with inputs := .readWord 0x000 :: rest } = .next { s with inputs := rest, hostData := 0 } ∧
    (∀ w, step { s with inputs := .writeWord 0x004 w :: rest } = .next { s with inputs := rest }) ∧
    (∀ w, step { s with inputs := .writeWord 0x008 w :: rest } = .next { s with inputs := rest })

/-! ## The timing window -/

/-- R110: TW_RESET completes in its step with REF <- now and RESULT <- (NONE, 0), and changes nothing else. -/
def Obligations.TwResetCapturesNow : Prop :=
  decode 0x01000000 = .ok .twReset ∧
  ∀ s : State, exec .twReset s = .next { s with ref := s.now, result := .none }

/-- R111: TW_ELAPSED ms completes in its step with the strict comparison in RESULT, and changes nothing else, for every
threshold; its word is 0x02 and the threshold. -/
def Obligations.TwElapsedComparesStrictly : Prop :=
  ∀ (ms : Ms) (s : State),
    decode (BitVec.ofNat 32 (0x02000000 + ms.toNat)) = .ok (.twElapsed ms) ∧
    exec (.twElapsed ms) s = .next { s with result := .bool (decide (windowPassed s ms)) }

/-- R116: TW_ELAPSED t, `d` microseconds after a TW_RESET with fewer than 2^TIME_WIDTH between, gives true exactly when
d > 1000 t, whether or not the clock wrapped through zero in between (R113). -/
def Obligations.WindowOpensStrictlyAfterThreshold : Prop :=
  ∀ (s : State) (ms : Ms) (d : Nat), d < 2 ^ s.params.timeWidth →
    ∃ t u, exec .twReset s = .next t ∧
      exec (.twElapsed ms) { t with now := (t.now + d) % 2 ^ t.params.timeWidth } = .next u ∧
      u.result = .bool (decide (1000 * ms.toNat < d)) ∧ u.ref = s.now

/-! ## The checksum -/

/-- R120, R121: CHECKSUM buf, n completes for every n of at most 260 with the sum of the first n bytes of the selected
buffer modulo 256 in RESULT, and changes nothing else; its word is 0x03, the buffer's bit and n; a word with a larger n is
reserved (R92), and that exec, given such an operand, answers the same refusal is assumption log 16. -/
def Obligations.ChecksumIsTheSumModulo256 : Prop :=
  ∀ (buf : BufSel) (len : BitVec 16) (s : State),
    let m := match buf with
      | .tx => s.txbuf
      | .rx => s.rxbuf
    let bsel := match buf with
      | .tx => 0
      | .rx => 0x10000
    (len.toNat ≤ 260 → decode (BitVec.ofNat 32 (0x03000000 + bsel + len.toNat)) = .ok (.checksum buf len)) ∧
    (260 < len.toNat → decode (BitVec.ofNat 32 (0x03000000 + bsel + len.toNat)) = .error .checksumLength) ∧
    (len.toNat ≤ 260 → exec (.checksum buf len) s = .next { s with
      result := .byte (BitVec.ofNat 8 (((List.range len.toNat).map fun i => (Memory.read m i).toNat).sum)) }) ∧
    (260 < len.toNat → exec (.checksum buf len) s = .refused (.reservedCommand .checksumLength))

/-- R123: buffers whose first n bytes are permutations of each other have the same checksum over n bytes. -/
def Obligations.ChecksumIgnoresByteOrder : Prop :=
  ∀ (m m' : Memory) (n : Nat), (Memory.bytes m n).Perm (Memory.bytes m' n) → sum8 m n = sum8 m' n

/-- R123: changing a single byte of the range always changes the checksum, and a byte outside the range never does. -/
def Obligations.SingleChangedByteChangesChecksum : Prop :=
  ∀ (m : Memory) (n k : Nat) (b : Byte), Memory.wf m = true →
    (k < n → b ≠ Memory.read m k → sum8 (Memory.write m k b) n ≠ sum8 m n) ∧
    (n ≤ k → sum8 (Memory.write m k b) n = sum8 m n)

/-! ## The validator -/

/-- R130 to R132: IS_POSITIVE completes with true exactly when RXBUF[4] is the request's service identifier plus 0x40,
the sum taken without wrapping, and changes nothing else. -/
def Obligations.IsPositiveComparesServiceId : Prop :=
  decode 0x04000000 = .ok .isPositive ∧
  ∀ s : State, exec .isPositive s = .next { s with
    result := .bool (decide ((Memory.read s.rxbuf 4).toNat =
      (if Memory.read s.txbuf 0 = 0x81 then Memory.read s.txbuf 3 else Memory.read s.txbuf 4).toNat + 0x40)) }

/-! ## The transmitter -/

/-- R140: SEND_REQUEST completes its issuing step with TXLEN the request's length, IDX 0 and PHASE TX_GATE, and changes
nothing else. -/
def Obligations.SendRequestStartsTheGate : Prop :=
  ∀ s : State, exec .sendRequest s = .next { s with
    txlen := BitVec.ofNat 9 (if Memory.read s.txbuf 0 = 0x81 then 5 else (Memory.read s.txbuf 3).toNat + 5),
    idx := 0, phase := .txGate }

/-- R141: TX_GATE raises P3_MAX_EXCEEDED when the window exceeds P3_MAX, otherwise goes to TX_WAIT and changes nothing
else. -/
def Obligations.TxGateTestsP3Max : Prop :=
  ∀ s : State, s.phase = .txGate →
    (windowPassed s s.params.p3Max → pollStep s = raiseError .p3MaxExceeded s) ∧
    (¬ windowPassed s s.params.p3Max → pollStep s = .next { s with phase := .txWait })

/-- R142: TX_WAIT goes to TX_PUT when the window exceeds P3_MIN and stays otherwise; it changes nothing else. -/
def Obligations.TxWaitHoldsUntilP3Min : Prop :=
  ∀ s : State, s.phase = .txWait →
    (windowPassed s s.params.p3Min → pollStep s = .next { s with phase := .txPut }) ∧
    (¬ windowPassed s s.params.p3Min → pollStep s = .next s)

/-- R143: TX_PUT writes TXBUF[IDX] to the line, resets the window and goes to TX_ECHO; it changes nothing else. -/
def Obligations.TxPutWritesAndResetsWindow : Prop :=
  ∀ s : State, s.phase = .txPut → s.idx.toNat < 260 →
    pollStep s = .next { s with
      txlog := s.txlog ++ [Memory.read s.txbuf s.idx.toNat], ref := s.now, phase := .txEcho }

/-- R144: TX_ECHO, time first: past P4_MIN the next byte or FINISHED; otherwise an available byte is read and a mismatch
raises ECHO_MISMATCH, a match or no byte stays. -/
def Obligations.TxEchoComparesEveryByte : Prop :=
  ∀ s : State, s.phase = .txEcho →
    (windowPassed s s.params.p4Min → s.idx + 1 = s.txlen →
      pollStep s = complete .finished { s with idx := s.idx + 1 }) ∧
    (windowPassed s s.params.p4Min → s.idx + 1 ≠ s.txlen →
      pollStep s = .next { s with idx := s.idx + 1, phase := .txPut }) ∧
    (¬ windowPassed s s.params.p4Min → s.rxq = [] → pollStep s = .next s) ∧
    (∀ e rest, ¬ windowPassed s s.params.p4Min → s.rxq = e :: rest → s.idx.toNat < 260 →
      (e = Memory.read s.txbuf s.idx.toNat → pollStep s = .next { s with rxq := rest }) ∧
      (e ≠ Memory.read s.txbuf s.idx.toNat → pollStep s = raiseError .echoMismatch { s with rxq := rest }))

/-- R60, R197: every step keeps TXLOG ending with what the running command has sent so far, INITIALIZE's first request
whole before the bytes of its second. -/
def Obligations.EveryStepKeepsSentSoFar : Prop :=
  ∀ s t : State, Inv s → SentSoFar s → step s = .next t → SentSoFar t

/-- R145, R152: a transmission, SEND_REQUEST's or one of INITIALIZE's, leaves its echo windows in one of two ways. With the
whole request at the end of TXLOG, REF unchanged since the last write and P4_MIN passed since: the host's command is then
FINISHED, INITIALIZE goes on to the response (R195). Or with ECHO_MISMATCH and TXLOG ending with the bytes up to the
mismatching one: the host's command ends with that error, INITIALIZE ends false. -/
def Obligations.FinishedMeansWholeRequestSent : Prop :=
  ∀ s t : State, Inv s → SentSoFar s → s.phase = .txEcho → pollStep s = .next t → t.phase.sending = false →
    (Memory.bytes s.txbuf s.txlen.toNat <:+ t.txlog ∧ t.ref = s.ref ∧ windowPassed t t.params.p4Min ∧
      (s.istep = .notRunning → t.phase = .idle ∧ t.result = .finished) ∧
      (s.istep ≠ .notRunning → t.phase = .rxAssemble ∧ t.result = s.result)) ∨
    (Memory.bytes s.txbuf (s.idx.toNat + 1) <:+ t.txlog ∧ t.ref = s.ref ∧ t.lastError = .echoMismatch ∧
      t.phase = .idle ∧ (s.istep = .notRunning → t.result = .error .echoMismatch) ∧
      (s.istep ≠ .notRunning → t.result = .bool false))

/-! ## The receiver -/

/-- R160: RECEIVE_RESPONSE cap, 4 to 260, completes its issuing step with RXCAP the capacity, IDX 0 and PHASE
RX_ASSEMBLE, and changes nothing else, REF included. A word with any other capacity is reserved (R92), and that exec, given
such an operand, answers the same refusal is assumption log 16. -/
def Obligations.ReceiveResponseStartsAssembling : Prop :=
  ∀ (cap : BitVec 16) (s : State),
    (4 ≤ cap.toNat ∧ cap.toNat ≤ 260 → exec (.receiveResponse cap) s = .next { s with
      rxcap := BitVec.ofNat 9 cap.toNat, idx := 0, phase := .rxAssemble }) ∧
    (¬ (4 ≤ cap.toNat ∧ cap.toNat ≤ 260) →
      exec (.receiveResponse cap) s = .refused (.reservedCommand .responseCapacity))

/-- R162 to R164, R168: a byte read at IDX 0, 1 or 2 is stored and resets the window, and is then compared with
RX_FORMAT, TESTER_ADDR or ECU_ADDR. -/
def Obligations.HeaderBytesAreChecked : Prop :=
  ∀ (s : State) (b : Byte) (rest : List Byte), s.phase = .rxAssemble → s.rxq = b :: rest →
    (s.idx = 0 →
      (b = s.params.rxFormat → pollStep s = .next { afterStore s b rest with idx := 1 }) ∧
      (b ≠ s.params.rxFormat → pollStep s = raiseError .badFormat (afterStore s b rest))) ∧
    (s.idx = 1 →
      (b = s.params.testerAddr → pollStep s = .next { afterStore s b rest with idx := 2 }) ∧
      (b ≠ s.params.testerAddr → pollStep s = raiseError .badTargetAddress (afterStore s b rest))) ∧
    (s.idx = 2 →
      (b = s.params.ecuAddr → pollStep s = .next { afterStore s b rest with idx := 3 }) ∧
      (b ≠ s.params.ecuAddr → pollStep s = raiseError .badSourceAddress (afterStore s b rest)))

/-- R165: the byte at index 3 gives TOTAL = b + 5 in 9 bits; above RXCAP it raises BUFFER_OVERFLOW, equal to it it does
not. -/
def Obligations.LengthByteIsHeldToCapacity : Prop :=
  ∀ (s : State) (b : Byte) (rest : List Byte), s.phase = .rxAssemble → s.rxq = b :: rest → s.idx = 3 →
    (b.toNat + 5 ≤ s.rxcap.toNat →
      pollStep s = .next { afterStore s b rest with total := BitVec.ofNat 9 (b.toNat + 5), idx := 4 }) ∧
    (s.rxcap.toNat < b.toNat + 5 →
      pollStep s = raiseError .bufferOverflow { afterStore s b rest with total := BitVec.ofNat 9 (b.toNat + 5) })

/-- R166, R167: from index 4 on a byte that is not the last is stored unchecked; the last one must be the checksum of the
bytes before it, and then the observation window opens with IDX = TOTAL. -/
def Obligations.FinalByteMustBeTheChecksum : Prop :=
  ∀ (s : State) (b : Byte) (rest : List Byte), s.phase = .rxAssemble → s.rxq = b :: rest → 4 ≤ s.idx.toNat →
    s.idx.toNat < 260 → Memory.wf s.rxbuf = true →
    (s.idx.toNat + 1 ≠ s.total.toNat → pollStep s = .next { afterStore s b rest with idx := s.idx + 1 }) ∧
    (s.idx.toNat + 1 = s.total.toNat → b = sum8 s.rxbuf s.idx.toNat →
      pollStep s = .next { afterStore s b rest with idx := s.total, phase := .rxPeek }) ∧
    (s.idx.toNat + 1 = s.total.toNat → b ≠ sum8 s.rxbuf s.idx.toNat →
      pollStep s = raiseError .checksumMismatch (afterStore s b rest))

/-- R168: a step of RX_ASSEMBLE that reads a byte stores it at RXBUF[IDX], inside the capacity granted, leaves every other
byte of RXBUF and all of TXBUF as they were, resets the window and takes the byte from RXQ, whether or not its check
fails. -/
def Obligations.EachReceivedByteIsStoredAtItsIndex : Prop :=
  ∀ (s : State) (b : Byte) (rest : List Byte), Inv s → s.phase = .rxAssemble → s.rxq = b :: rest →
    s.idx < s.rxcap ∧ ∃ t, pollStep s = .next t ∧ t.ref = s.now ∧ t.rxq = rest ∧
      (∀ a, Memory.read t.rxbuf a = if a = s.idx.toNat then b else Memory.read s.rxbuf a) ∧
      (∀ a, Memory.read t.txbuf a = Memory.read s.txbuf a)

/-- R161, R169: with no byte available RX_ASSEMBLE raises P2_MAX_TIMEOUT when the window exceeds P2_MAX, at every index,
and stays otherwise. -/
def Obligations.SilentLineTimesOut : Prop :=
  ∀ s : State, s.phase = .rxAssemble → s.rxq = [] →
    (windowPassed s s.params.p2Max → pollStep s = raiseError .p2MaxTimeout s) ∧
    (¬ windowPassed s s.params.p2Max → pollStep s = .next s)

/-- R170: in RX_PEEK a waiting byte ends the operation PENDING, otherwise P2_MAX ends it FINISHED, otherwise it stays;
nothing is read and nothing is written. -/
def Obligations.PeekTellsPendingFromFinished : Prop :=
  ∀ s : State, s.phase = .rxPeek →
    (s.rxq ≠ [] → pollStep s = complete .pending s) ∧
    (s.rxq = [] → windowPassed s s.params.p2Max → pollStep s = complete .finished s) ∧
    (s.rxq = [] → ¬ windowPassed s s.params.p2Max → pollStep s = .next s)

/-- R176: a reception, RECEIVE_RESPONSE's or one of INITIALIZE's, ends in one of two ways. From RX_PEEK with no error: RXBUF
holds a frame that passes every check, REF and RXQ are as they were, and RXQ tells FINISHED from PENDING; inside INITIALIZE
only FINISHED with a positive response goes on or ends it true (R195). Or from RX_ASSEMBLE with one of the six errors of the
receiver (R160): the host's command ends with that error, INITIALIZE ends false. -/
def Obligations.EndedReceptionHoldsAcceptedFrame : Prop :=
  ∀ s t : State, Inv s → s.phase.receiving = true → pollStep s = .next t → t.phase.receiving = false →
    (s.phase = .rxPeek ∧ FrameAccepted t ∧ t.ref = s.ref ∧ t.rxq = s.rxq ∧
      (t.rxq = [] → windowPassed t t.params.p2Max) ∧
      (s.istep = .notRunning → t.phase = .idle ∧ t.result = if t.rxq = [] then .finished else .pending) ∧
      (s.istep ≠ .notRunning →
        if t.rxq = [] ∧ s.positive = true then t.phase = .txGate ∨ (t.phase = .idle ∧ t.result = .bool true)
        else t.phase = .idle ∧ t.result = .bool false)) ∨
    (s.phase = .rxAssemble ∧ t.phase = .idle ∧
      t.lastError ∈ [.p2MaxTimeout, .badFormat, .badTargetAddress, .badSourceAddress, .bufferOverflow,
        .checksumMismatch] ∧
      t.result = if s.istep = .notRunning then .error t.lastError else .bool false)

/-! ## Errors and the error slot -/

/-- R210: GET_LAST_ERROR completes with (ERRCODE, LAST_ERROR) in RESULT and changes nothing else, the slot included. -/
def Obligations.GetLastErrorReadsTheSlot : Prop :=
  decode 0x07000000 = .ok .getLastError ∧
  ∀ s : State, exec .getLastError s = .next { s with result := .errcode s.lastError }

/-- R211: no command writes LAST_ERROR in the step that issues it, and the five that are not fallible end in that step, so
they never write it. -/
def Obligations.IssuingACommandKeepsTheErrorSlot : Prop :=
  ∀ (i : Instr) (s : State), i.wf = true → ∃ t, exec i s = .next t ∧ t.lastError = s.lastError

/-- R229: raising an error writes its code to LAST_ERROR and ends the command: at ISTEP 0 with RESULT (ERROR, c) and PHASE
IDLE, inside an exchange of INITIALIZE with its "fail" arm (R195). Nothing else changes. During the wake-up steps, where no
rule raises and R195 has no arm, the model stops: its own choice, assumption log 15. -/
def Obligations.RaiseRecordsTheCodeAndEnds : Prop :=
  ∀ (c : ErrorCode) (s : State),
    (s.istep = .notRunning →
      raiseError c s = .next { s with lastError := c, result := .error c, phase := .idle }) ∧
    (s.istep = .sendStart ∨ s.istep = .recvStart ∨ s.istep = .sendSession ∨ s.istep = .recvSession →
      raiseError c s = .next { s with lastError := c, result := .bool false, istep := .notRunning, phase := .idle }) ∧
    (s.istep = .wakeIdle ∨ s.istep = .wakeLow ∨ s.istep = .wakeHigh → raiseError c s = .fault .noContinuation)

/-- R19, R235: an operation that ends without an error at ISTEP 0 leaves its result, an idle engine and an unspecified
LAST_ERROR (a free value), and changes nothing else. -/
def Obligations.SuccessLeavesTheErrorSlotUnspecified : Prop :=
  ∀ s : State, s.istep = .notRunning → ∃ c : ErrorCode,
    complete .finished s = .next { s with result := .finished, phase := .idle, lastError := c, draws := s.draws + 1 } ∧
    complete .pending s = .next { s with result := .pending, phase := .idle, lastError := c, draws := s.draws + 1 }

/-- R22: over every step, LAST_ERROR changes only when a running command ends, or at `rst`. That it does not change where a
sub-operation of INITIALIZE ends and the sequence goes on is assumption log 10. -/
def Obligations.ErrorSlotChangesOnlyWhenACommandEnds : Prop :=
  ∀ s t : State, step s = .next t →
    t.lastError = s.lastError ∨ (s.phase ≠ .idle ∧ t.phase = .idle) ∨ s.inputs.head? = some .rst

/-- R94, R221 to R228: how each operation can end. A transmitter operation of the host ends FINISHED or with code 1 or 8,
a receiver operation FINISHED, PENDING or with a code 2 to 7, INITIALIZE with a Boolean; a poll step that ends no command
leaves RESULT alone. -/
def Obligations.ResultKindsOfTheRunningCommand : Prop :=
  ∀ s t : State, pollStep s = .next t →
    (t.phase ≠ .idle → t.result = s.result) ∧
    (t.phase = .idle → s.istep ≠ .notRunning → s.phase ≠ .idle → ∃ b, t.result = .bool b) ∧
    (t.phase = .idle → s.istep = .notRunning → s.phase.sending = true →
      t.result = .finished ∨ t.result = .error .p3MaxExceeded ∨ t.result = .error .echoMismatch) ∧
    (t.phase = .idle → s.istep = .notRunning → s.phase.receiving = true →
      t.result = .finished ∨ t.result = .pending ∨ t.result = .error .p2MaxTimeout ∨ t.result = .error .badFormat ∨
      t.result = .error .badTargetAddress ∨ t.result = .error .badSourceAddress ∨ t.result = .error .bufferOverflow ∨
      t.result = .error .checksumMismatch)

/-! ## The initializer -/

/-- R191: INITIALIZE completes its issuing step with the window reset, the line suspended, the pin high and the first
wake-up interval begun, and changes nothing else. -/
def Obligations.InitializeSuspendsTheLine : Prop :=
  ∀ s : State, exec .ecuInitialize s = .next { s with
    ref := s.now, lineEn := false, wakePin := true, dref := s.now, istep := .wakeIdle, phase := .initWake }

/-- R192, R193: the wake-up pattern. Each interval ends at the first poll step at least its length after it began; the
pin goes low, then high, then the line is resumed with RXQ empty and the first request of 5 bytes starts. -/
def Obligations.WakePatternDrivesThePin : Prop :=
  ∀ s : State, s.phase = .initWake →
    (s.istep = .wakeIdle →
      (delayPassed s s.params.wIdleMs →
        pollStep s = .next { s with wakePin := false, dref := s.now, istep := .wakeLow }) ∧
      (¬ delayPassed s s.params.wIdleMs → pollStep s = .next s)) ∧
    (s.istep = .wakeLow →
      (delayPassed s s.params.wLowMs →
        pollStep s = .next { s with wakePin := true, dref := s.now, istep := .wakeHigh }) ∧
      (¬ delayPassed s s.params.wLowMs → pollStep s = .next s)) ∧
    (s.istep = .wakeHigh →
      (delayPassed s s.params.wHighMs → ∃ t, pollStep s = .next t ∧
        t = { s with
          lineEn := true, rxq := [], txbuf := t.txbuf, txlen := 5, idx := 0, phase := .txGate, istep := .sendStart }) ∧
      (¬ delayPassed s s.params.wHighMs → pollStep s = .next s))

/-- R194: the bytes of the start-communication request in TXBUF at the end of the wake-up pattern, with TXLEN 5, every
other byte of TXBUF as before. -/
def Obligations.StartRequestBytes : Prop :=
  ∀ s t : State, s.phase = .initWake → s.istep = .wakeHigh → Memory.wf s.txbuf = true →
    delayPassed s s.params.wHighMs → pollStep s = .next t →
    t.txlen = 5 ∧ Memory.bytes t.txbuf 5 = [0x81, s.params.ecuAddr, s.params.testerAddr, s.params.scSid,
      0x81 + s.params.ecuAddr + s.params.testerAddr + s.params.scSid] ∧
    ∀ a, 5 ≤ a → Memory.read t.txbuf a = Memory.read s.txbuf a

/-- R195, R196: when the first response is FINISHED and positive, the start-diagnostic-session request is in TXBUF, every
other byte of TXBUF as before, and its transmission starts; nothing else changes. That LAST_ERROR is among what does not
change is assumption log 10. -/
def Obligations.SessionRequestFollowsPositiveReply : Prop :=
  ∀ s : State, s.istep = .recvStart → Memory.wf s.txbuf = true → s.positive = true →
    ∃ t, complete .finished s = .next t ∧
      t = { s with txbuf := t.txbuf, txlen := 7, idx := 0, phase := .txGate, istep := .sendSession } ∧
      Memory.bytes t.txbuf 7 = [0x80, s.params.ecuAddr, s.params.testerAddr, 0x02, 0x10, 0x80,
        0x80 + s.params.ecuAddr + s.params.testerAddr + 0x02 + 0x10 + 0x80] ∧
      ∀ a, 7 ≤ a → Memory.read t.txbuf a = Memory.read s.txbuf a

/-- R195: how an operation that ends without an error inside INITIALIZE continues. A sent request is followed by the
reception of its response; a PENDING or a response that is not positive ends INITIALIZE false, the second positive
response ends it true, in both cases with LAST_ERROR a free value (R235). That LAST_ERROR is left as it was where INITIALIZE
goes on is assumption log 10. -/
def Obligations.ExchangesContinueOrFail : Prop :=
  ∀ s : State,
    (s.istep = .sendStart → complete .finished s =
      .next { s with rxcap := s.params.initRxCap, idx := 0, phase := .rxAssemble, istep := .recvStart }) ∧
    (s.istep = .sendSession → complete .finished s =
      .next { s with rxcap := s.params.initRxCap, idx := 0, phase := .rxAssemble, istep := .recvSession }) ∧
    (s.istep = .recvStart ∨ s.istep = .recvSession → ∃ c : ErrorCode,
      complete .pending s = .next { s with
        result := .bool false, istep := .notRunning, phase := .idle, lastError := c, draws := s.draws + 1 } ∧
      (s.positive = false → complete .finished s = .next { s with
        result := .bool false, istep := .notRunning, phase := .idle, lastError := c, draws := s.draws + 1 })) ∧
    (s.istep = .recvSession → s.positive = true → ∃ c : ErrorCode, complete .finished s = .next { s with
      result := .bool true, istep := .notRunning, phase := .idle, lastError := c, draws := s.draws + 1 })

/-- R197, R195: INITIALIZE ends true only from the observation window of its second response, FINISHED: TXLOG ends with the
5 bytes of request 1 and the 7 bytes of request 2, RXBUF holds an accepted frame that is positive for request 2, so with
0x50 at offset 4 (42_frame_validator.md R135), REF is the time its last byte was read, the pin is high and the line
resumed. -/
def Obligations.TrueOnlyAfterBothExchanges : Prop :=
  ∀ s t : State, Inv s → SentSoFar s → s.istep ≠ .notRunning → pollStep s = .next t → t.phase = .idle →
    t.result = .bool true →
    s.istep = .recvSession ∧ s.phase = .rxPeek ∧ s.rxq = [] ∧ windowPassed s s.params.p2Max ∧ s.positive = true ∧
    startRequest s.params ++ sessionRequest s.params <:+ t.txlog ∧ FrameAccepted t ∧ t.rxbuf = s.rxbuf ∧
    Memory.read t.rxbuf 4 = 0x50 ∧ t.ref = s.ref ∧ t.istep = .notRunning ∧ t.wakePin = true ∧ t.lineEn = true

/-- R198: whenever a poll step ends a command, INITIALIZE's failures included, the pin is high, the line is resumed and
ISTEP is 0. -/
def Obligations.EndedCommandsLeaveTheLineResumed : Prop :=
  ∀ s t : State, Inv s → pollStep s = .next t → t.phase = .idle →
    t.wakePin = true ∧ t.lineEn = true ∧ t.istep = .notRunning

/-! ## Whole-machine rules -/

/-- R21: over every step, REF changes only to the step's `now`, and only in TW_RESET, a TX_PUT step, an RX_ASSEMBLE step
that reads a byte, and the issuing step of INITIALIZE; `rst` leaves it unspecified (10_state.md R43). -/
def Obligations.ReferenceIsWrittenOnlyByFourEvents : Prop :=
  ∀ s t : State, step s = .next t →
    t.ref = s.ref ∨ s.inputs.head? = some .rst ∨
    (t.ref = t.now ∧
      ((s.phase = .idle ∧ ∃ w, s.inputs.head? = some (.writeWord 0x000 w) ∧
          (decode w = .ok .twReset ∨ decode w = .ok .ecuInitialize)) ∨
        (s.phase = .txPut ∧ t.phase = .txEcho) ∨
        (s.phase = .rxAssemble ∧ ∃ b, s.rxq = b :: t.rxq)))

/-- R41: no step changes a parameter. -/
def Obligations.ParametersAreFixedForARun : Prop := ∀ s t : State, step s = .next t → t.params = s.params

/-- R34: over every step, WAKE_PIN and LINE_EN change only when INITIALIZE is issued or in its wake-up phase, or at
`rst`. -/
def Obligations.LineOutputsChangeOnlyInWakeUp : Prop :=
  ∀ s t : State, step s = .next t →
    (t.wakePin = s.wakePin ∧ t.lineEn = s.lineEn) ∨ s.phase = .initWake ∨
    (s.phase = .idle ∧ t.phase = .initWake) ∨ s.inputs.head? = some .rst

/-- R18, R60: over every step, TXLOG gains at most one byte, and only TXBUF[IDX] in a TX_PUT step. -/
def Obligations.TransmitLogGainsOnlyTheNextByte : Prop :=
  ∀ s t : State, step s = .next t →
    t.txlog = s.txlog ∨
    (s.phase = .txPut ∧ t.phase = .txEcho ∧ t.txlog = s.txlog ++ [Memory.read s.txbuf s.idx.toNat])

/-- R58, R61, R258, R9: over every step, RXQ is unchanged, or loses its oldest byte to a TX_ECHO or RX_ASSEMBLE step, or
gains arriving bytes at its end while LINE_EN is 1, or is emptied at the end of the wake-up pattern. -/
def Obligations.ReceiveQueueIsFirstInFirstOut : Prop :=
  ∀ s t : State, step s = .next t →
    t.rxq = s.rxq ∨
    ((s.phase = .txEcho ∨ s.phase = .rxAssemble) ∧ ∃ b, s.rxq = b :: t.rxq) ∨
    (s.lineEn = true ∧ ∃ bs, s.inputs.head? = some (.arrive bs) ∧ t.rxq = s.rxq ++ bs) ∨
    (s.phase = .initWake ∧ s.istep = .wakeHigh ∧ t.istep = .sendStart ∧ t.rxq = [])

/-- R29, R30: over every step, RXBUF changes only by the byte an RX_ASSEMBLE step reads, stored at IDX, by an idle host
write of one byte, or at `rst`; TXBUF only by an idle host write of one byte, by INITIALIZE loading a request, or at
`rst`. -/
def Obligations.BuffersHaveTheirNamedWriters : Prop :=
  ∀ s t : State, step s = .next t →
    (t.rxbuf = s.rxbuf ∨ s.inputs.head? = some .rst ∨
      (s.phase = .rxAssemble ∧ ∃ b, s.rxq = b :: t.rxq ∧ t.rxbuf = Memory.write s.rxbuf s.idx.toNat b) ∨
      (s.phase = .idle ∧ ∃ i b, i < 260 ∧ s.inputs.head? = some (.writeByte (0x300 + i) b) ∧
        t.rxbuf = Memory.write s.rxbuf i b)) ∧
    (t.txbuf = s.txbuf ∨ s.inputs.head? = some .rst ∨
      (s.istep = .wakeHigh ∧ t.istep = .sendStart) ∨ (s.istep = .recvStart ∧ t.istep = .sendSession) ∨
      (s.phase = .idle ∧ ∃ i b, i < 260 ∧ s.inputs.head? = some (.writeByte (0x100 + i) b) ∧
        t.txbuf = Memory.write s.txbuf i b))

/-- R40: no rule reads TXLOG. A step of a machine with a longer past differs from the same step with a shorter one in
that past alone. -/
def Obligations.TransmitLogIsNeverRead : Prop :=
  ∀ (s : State) (past : List Byte),
    step { s with txlog := past ++ s.txlog } = onNext (fun t => { t with txlog := past ++ t.txlog }) (step s)

/-- The state after reset meets the invariant. -/
def Obligations.ResetMeetsTheInvariant : Prop := Inv State.reset ∧ SentSoFar State.reset

/-- From every state that meets the invariant, a step gives a state that meets it (10_state.md R24 to R28, R34). -/
def Obligations.EveryStepKeepsTheInvariant : Prop := ∀ s t : State, Inv s → step s = .next t → Inv t

/-- From every state that meets the invariant, no step ends in a fault: no access outside a buffer
(44_response_receiver.md R168) and no operation without a continuation. -/
def Obligations.NoStepFaults : Prop := ∀ (s : State) (r : Fault), Inv s → step s ≠ .fault r

/-- R270: how far a command is from its end. The measure `rank` is at most 1802 and is 0 exactly when the engine is idle; no
poll step raises it, and every poll step that finds its wait over lowers it; while the engine is busy every other move but
`rst` leaves it as it was. That a command ends needs the fairness of 00_scope.md R10 beside this (assumption log 19): see
FairRunsEndEveryCommand. -/
def Obligations.RankFallsWhenAWaitIsOver : Prop :=
  ∀ s : State, Inv s → s.rank ≤ 1802 ∧ (s.rank = 0 ↔ s.phase = .idle) ∧
    (∀ t, pollStep s = .next t → t.rank ≤ s.rank ∧ (s.waitOver = true → t.rank < s.rank)) ∧
    ∀ (m : Input) (rest : List Input) (t : State), s.phase ≠ .idle → s.inputs = m :: rest → m ≠ .poll → m ≠ .rst →
      step s = .next t → t.rank = s.rank ∧ t.phase = s.phase

/-! ## Reset -/

/-- R43, R250: `rst` puts every element R43 gives a value at that value whatever the engine was doing, leaves RXQ and TXLOG
alone, and ends the running command without a result. That it leaves `now` as it was, which R43 leaves to the environment,
is assumption log 8; that `rst` is a listed move and leaves the model's own fields is assumption logs 1 and 8. -/
def Obligations.ResetEventAbandonsTheCommand : Prop :=
  ∀ (s : State) (rest : List Input), s.inputs = .rst :: rest → ∃ t, step s = .next t ∧
    t.phase = .idle ∧ t.istep = .notRunning ∧ t.result = .none ∧ t.lastError = .errNone ∧ t.wakePin = true ∧
    t.lineEn = true ∧ t.now = s.now ∧ t.rxq = s.rxq ∧ t.txlog = s.txlog ∧ t.params = s.params ∧ t.inputs = rest ∧
    t.hostData = s.hostData

/-- R43: the values the spec gives for reset, in the state a run starts from. -/
def Obligations.ResetStateValues : Prop :=
  State.reset.phase = .idle ∧ State.reset.istep = .notRunning ∧ State.reset.result = .none ∧
  State.reset.lastError = .errNone ∧ State.reset.wakePin = true ∧ State.reset.lineEn = true ∧
  State.reset.rxq = [] ∧ State.reset.txlog = []

/-! ## Fair runs -/

/-- R270, R10: in every fair run, every command ends: from every point on, the engine is idle at some later point. The
fairness is a premise, `Fair`, as R10 makes it an assumption; the machine's step does not build it in (assumption log
19). The environment may list further moves at any time. -/
def Obligations.FairRunsEndEveryCommand : Prop :=
  ∀ ρ : Nat → State, Run ρ → Inv (ρ 0) → Fair ρ → ∀ n, ∃ m, n ≤ m ∧ (ρ m).phase = .idle
end

