-- ==== Sys2Proof/Laws/Decode.lean ====
section
/-! SUPPORT. The command word as a number: what each field of a word is, and what each encoder builds. -/

namespace Sys2Proof

theorem append_toNat {n m : Nat} (x : BitVec n) (y : BitVec m) : (x ++ y).toNat = x.toNat * 2 ^ m + y.toNat := by
  rw [BitVec.toNat_append, ← Nat.shiftLeft_add_eq_or_of_lt y.isLt, Nat.shiftLeft_eq]

theorem field_toNat (w : Word) (s n : Nat) : (w.extractLsb' s n).toNat = w.toNat / 2 ^ s % 2 ^ n := by
  rw [BitVec.extractLsb'_toNat, Nat.shiftRight_eq_div_pow]

theorem opField_toNat (w : Word) : (opField w).toNat = w.toNat / 2 ^ 24 := by
  have := w.isLt
  unfold opField
  rw [field_toNat]
  omega

theorem immField_toNat (w : Word) : (immField w).toNat = w.toNat % 2 ^ 16 := by
  unfold immField
  rw [field_toNat]
  omega

theorem bselField_toNat (w : Word) : (bselField w).toNat = w.toNat / 2 ^ 16 % 2 := field_toNat w 16 1

/-- A field of a word is zero exactly when its number is. -/
theorem field_eq_zero (w : Word) (s n : Nat) : w.extractLsb' s n = 0 ↔ w.toNat / 2 ^ s % 2 ^ n = 0 := by
  rw [← field_toNat]
  exact ⟨fun h => by rw [h]; simp, fun h => BitVec.eq_of_toNat_eq (by rw [h]; simp)⟩

theorem encodeCF0_toNat (op : BitVec 8) : (encodeCF0 op).toNat = op.toNat * 2 ^ 24 := by
  unfold encodeCF0
  rw [append_toNat]
  simp

theorem encodeCF1_toNat (op : BitVec 8) (imm : BitVec 16) :
    (encodeCF1 op imm).toNat = op.toNat * 2 ^ 24 + imm.toNat := by
  unfold encodeCF1
  rw [append_toNat, append_toNat]
  simp

theorem encodeCF2_toNat (op : BitVec 8) (buf : BufSel) (imm : BitVec 16) :
    (encodeCF2 op buf imm).toNat = op.toNat * 2 ^ 24 + (bufSelBit buf).toNat * 2 ^ 16 + imm.toNat := by
  unfold encodeCF2
  rw [append_toNat, append_toNat, append_toNat]
  simp
  omega

@[simp] theorem bufSelOf_bufSelBit (buf : BufSel) : bufSelOf (bufSelBit buf) = buf := by cases buf <;> rfl

@[simp] theorem bufSelBit_bufSelOf (b : BitVec 1) : bufSelBit (bufSelOf b) = b := by
  unfold bufSelOf
  split
  · subst b
    rfl
  · rename_i hb
    apply BitVec.eq_of_toNat_eq
    have h0 : b.toNat ≠ 0 := fun h => hb (BitVec.eq_of_toNat_eq h)
    change 1 = b.toNat
    omega

end Sys2Proof
end

