-- ==== Sys2Proof/Laws/Memory.lean ====
section
/-! SUPPORT. The laws of the buffers: reading after writing, and that every operation keeps the canonical form. -/

namespace Sys2Proof.Machine

theorem Memory.wfFrom_mono {lo lo' : Nat} (h : lo' ≤ lo) {m : Memory} (hm : Memory.wfFrom lo m = true) :
    Memory.wfFrom lo' m = true := by
  cases m with
  | nil => rfl
  | cons c rest =>
    obtain ⟨k, v⟩ := c
    simp only [Memory.wfFrom, Bool.and_eq_true, decide_eq_true_eq] at hm ⊢
    exact ⟨⟨⟨by omega, hm.1.1.2⟩, hm.1.2⟩, hm.2⟩

/-- An offset below every listed one reads as the unwritten byte. -/
theorem Memory.read_below {lo a : Nat} (h : a < lo) {m : Memory} (hm : Memory.wfFrom lo m = true) :
    Memory.read m a = unwrittenByte := by
  induction m generalizing lo with
  | nil => rfl
  | cons c rest ih =>
    obtain ⟨k, v⟩ := c
    simp only [Memory.wfFrom, Bool.and_eq_true, decide_eq_true_eq] at hm
    simp only [Memory.read]
    rw [if_neg (by omega)]
    exact ih (lo := k + 1) (by omega) hm.2

theorem Memory.wfFrom_cell {lo a : Nat} {b : Byte} {m : Memory} (hlo : lo ≤ a) (ha : a < bufSize)
    (hm : Memory.wfFrom (a + 1) m = true) : Memory.wfFrom lo (Memory.cell a b m) = true := by
  unfold Memory.cell
  split
  · exact Memory.wfFrom_mono (by omega) hm
  · simp only [Memory.wfFrom, Bool.and_eq_true, decide_eq_true_eq]
    exact ⟨⟨⟨hlo, ha⟩, by simpa using ‹¬b = unwrittenByte›⟩, hm⟩

theorem Memory.wfFrom_write {lo a : Nat} {b : Byte} {m : Memory} (hlo : lo ≤ a) (ha : a < bufSize)
    (hm : Memory.wfFrom lo m = true) : Memory.wfFrom lo (Memory.write m a b) = true := by
  induction m generalizing lo with
  | nil => exact Memory.wfFrom_cell hlo ha rfl
  | cons c rest ih =>
    obtain ⟨k, v⟩ := c
    have hm' := hm
    simp only [Memory.wfFrom, Bool.and_eq_true, decide_eq_true_eq] at hm
    simp only [Memory.write]
    split
    · refine Memory.wfFrom_cell hlo ha ?_
      simp only [Memory.wfFrom, Bool.and_eq_true, decide_eq_true_eq]
      exact ⟨⟨⟨by omega, hm.1.1.2⟩, hm.1.2⟩, hm.2⟩
    · split
      · subst a
        exact Memory.wfFrom_cell hlo ha hm.2
      · simp only [Memory.wfFrom, Bool.and_eq_true, decide_eq_true_eq]
        exact ⟨hm.1, ih (by omega) hm.2⟩

/-- A write of a byte of a buffer keeps the canonical form. -/
theorem Memory.wf_write {a : Nat} {b : Byte} {m : Memory} (ha : a < bufSize) (hm : m.wf = true) :
    Memory.wf (Memory.write m a b) = true :=
  Memory.wfFrom_write (by omega) ha hm

@[simp] theorem Memory.wf_nil : Memory.wf [] = true := rfl

theorem Memory.wf_writeAll {m : Memory} {a : Nat} {bs : List Byte} (h : a + bs.length ≤ bufSize) (hm : m.wf = true) :
    Memory.wf (Memory.writeAll m a bs) = true := by
  induction bs generalizing m a with
  | nil => exact hm
  | cons b bs ih =>
    simp only [List.length_cons] at h
    exact ih (by omega) (Memory.wf_write (by omega) hm)

theorem Memory.wf_drawn {d n : Nat} (h : n ≤ bufSize) : Memory.wf (Memory.drawn d n) = true := by
  induction n with
  | zero => rfl
  | succ n ih => exact Memory.wf_write (by omega) (ih (by omega))

theorem Memory.wf_unspecified (d : Nat) : Memory.wf (Memory.unspecified d) = true := by
  unfold Memory.unspecified
  exact Memory.wf_drawn (Nat.le_refl _)

theorem Memory.read_cell (a : Nat) (b : Byte) (m : Memory) (x : Nat) :
    Memory.read (Memory.cell a b m) x =
      if x = a then (if b = unwrittenByte then Memory.read m x else b) else Memory.read m x := by
  unfold Memory.cell
  split <;> simp [Memory.read]

theorem Memory.read_write_from {lo : Nat} {m : Memory} (hm : Memory.wfFrom lo m = true) (a : Nat) (b : Byte) (x : Nat) :
    Memory.read (Memory.write m a b) x = if x = a then b else Memory.read m x := by
  induction m generalizing lo with
  | nil =>
    simp only [Memory.write, Memory.read_cell, Memory.read]
    split
    · split <;> simp_all
    · rfl
  | cons c rest ih =>
    obtain ⟨k, v⟩ := c
    have hm' := hm
    simp only [Memory.wfFrom, Bool.and_eq_true, decide_eq_true_eq] at hm
    simp only [Memory.write]
    split
    · rw [Memory.read_cell]
      split
      · split
        · subst x
          rw [Memory.read_below (lo := a + 1) (by omega)
            (by simp only [Memory.wfFrom, Bool.and_eq_true, decide_eq_true_eq]; exact ⟨⟨⟨by omega, hm.1.1.2⟩, hm.1.2⟩, hm.2⟩)]
          exact (‹b = unwrittenByte›).symm
        · rfl
      · rfl
    · split
      · subst a
        rw [Memory.read_cell]
        simp only [Memory.read]
        split
        · split
          · subst x
            rw [Memory.read_below (lo := k + 1) (by omega) hm.2]
            exact (‹b = unwrittenByte›).symm
          · rfl
        · rfl
      · simp only [Memory.read, ih hm.2]
        by_cases hxk : x = k
        · subst x
          simp [show ¬ k = a by omega]
        · simp [hxk]

/-- A read after a write: the byte written at its offset, what was there before at every other. -/
theorem Memory.read_write {m : Memory} (hm : m.wf = true) (a : Nat) (b : Byte) (x : Nat) :
    Memory.read (Memory.write m a b) x = if x = a then b else Memory.read m x :=
  Memory.read_write_from hm a b x

@[simp] theorem Memory.read_nil (a : Nat) : Memory.read [] a = unwrittenByte := rfl

/-- The checksum reads the first `n` bytes only. -/
theorem sum8_congr {m m' : Memory} {n : Nat} (h : ∀ i, i < n → Memory.read m i = Memory.read m' i) :
    sum8 m n = sum8 m' n := by
  induction n with
  | zero => rfl
  | succ n ih =>
    simp only [sum8]
    rw [ih fun i hi => h i (by omega), h n (by omega)]

@[simp] theorem sum8_zero (m : Memory) : sum8 m 0 = 0 := rfl

theorem sum8_succ (m : Memory) (n : Nat) : sum8 m (n + 1) = sum8 m n + Memory.read m n := rfl

@[simp] theorem Memory.bytes_zero (m : Memory) : Memory.bytes m 0 = [] := rfl

theorem Memory.bytes_succ (m : Memory) (n : Nat) : Memory.bytes m (n + 1) = Memory.bytes m n ++ [Memory.read m n] := by
  simp [Memory.bytes, List.range_succ]

/-- The checksum as one sum of numbers, reduced once (41_checksum.md R120). -/
theorem sum8_eq_sum (m : Memory) (n : Nat) :
    sum8 m n = BitVec.ofNat 8 ((List.range n).map fun i => (Memory.read m i).toNat).sum := by
  induction n with
  | zero => rfl
  | succ n ih => simp [sum8_succ, ih, List.range_succ, BitVec.ofNat_add]

/-- A byte of a buffer is the byte at its place among the first ones. -/
theorem Memory.read_eq_of_bytes {m : Memory} {n : Nat} {bs : List Byte} (h : Memory.bytes m n = bs) {i : Nat}
    (hi : i < n) : bs[i]? = some (Memory.read m i) := by
  rw [← h]
  simp [Memory.bytes, hi]

/-- Buffers that read alike below `n` have the same first `n` bytes. -/
theorem Memory.bytes_congr {m m' : Memory} {n : Nat} (h : ∀ i, i < n → Memory.read m i = Memory.read m' i) :
    Memory.bytes m n = Memory.bytes m' n :=
  List.map_congr_left fun i hi => h i (List.mem_range.1 hi)

/-- Reading after writing a list of bytes: the list where it lies, what was there before elsewhere. -/
theorem Memory.read_writeAll {m : Memory} (hm : m.wf = true) {a : Nat} {bs : List Byte} (h : a + bs.length ≤ bufSize)
    (x : Nat) :
    Memory.read (Memory.writeAll m a bs) x = if x < a then Memory.read m x else bs.getD (x - a) (Memory.read m x) := by
  induction bs generalizing m a with
  | nil => simp [Memory.writeAll]
  | cons b bs ih =>
    simp only [List.length_cons] at h
    rw [Memory.writeAll, ih (Memory.wf_write (by omega) hm) (by omega), Memory.read_write hm]
    rcases Nat.lt_trichotomy x a with hx | rfl | hx
    · simp [hx, Nat.lt_succ_of_lt hx, Nat.ne_of_lt hx]
    · simp
    · obtain ⟨k, rfl⟩ := Nat.exists_eq_add_of_lt hx
      simp [show ¬ a + k + 1 < a by omega, show a + k + 1 ≠ a by omega, show a + k + 1 - (a + 1) = k by omega,
        show a + k + 1 - a = k + 1 by omega]

/-- The bytes written from offset 0 on are the first bytes of the buffer. -/
theorem Memory.bytes_writeAll {m : Memory} (hm : m.wf = true) {bs : List Byte} (h : bs.length ≤ bufSize) :
    Memory.bytes (Memory.writeAll m 0 bs) bs.length = bs := by
  refine List.ext_getElem (by simp [Memory.bytes]) fun i _ h2 => ?_
  simp [Memory.bytes, Memory.read_writeAll hm (a := 0) (bs := bs) (by omega), h2]

/-- The checksum as the bytes added up in their order. -/
theorem sum8_eq_foldl (m : Memory) (n : Nat) : sum8 m n = (Memory.bytes m n).foldl (· + ·) 0 := by
  induction n with
  | zero => rfl
  | succ n ih => rw [sum8_succ, ih, Memory.bytes_succ, List.foldl_append]; rfl

/-- What a written frame is: its bytes and their checksum at the start of the buffer. -/
theorem Memory.bytes_writeFrame {m : Memory} (hm : m.wf = true) {bs : List Byte} (h : bs.length < bufSize) :
    Memory.bytes (Memory.writeFrame m bs) (bs.length + 1) = bs ++ [bs.foldl (· + ·) 0] := by
  have hw := Memory.wf_writeAll (a := 0) (bs := bs) (by omega) hm
  have hb := Memory.bytes_writeAll hm (Nat.le_of_lt h)
  unfold Memory.writeFrame
  rw [Memory.bytes_succ, Memory.read_write hw, if_pos rfl, sum8_eq_foldl, hb]
  refine congrArg (· ++ _) ((Memory.bytes_congr fun i hi => ?_).trans hb)
  rw [Memory.read_write hw, if_neg (Nat.ne_of_lt hi)]

/-- A written frame leaves the bytes behind it as they were. -/
theorem Memory.read_writeFrame {m : Memory} (hm : m.wf = true) {bs : List Byte} (h : bs.length < bufSize) {x : Nat}
    (hx : bs.length < x) : Memory.read (Memory.writeFrame m bs) x = Memory.read m x := by
  unfold Memory.writeFrame
  rw [Memory.read_write (Memory.wf_writeAll (by omega) hm), if_neg (Nat.ne_of_gt hx), Memory.read_writeAll hm (by omega)]
  simp [Nat.le_of_lt hx]

theorem Memory.wf_writeFrame {m : Memory} (hm : m.wf = true) {bs : List Byte} (h : bs.length < bufSize) :
    Memory.wf (Memory.writeFrame m bs) = true :=
  Memory.wf_write h (Memory.wf_writeAll (by omega) hm)

theorem sum8_eq_bytes (m : Memory) (n : Nat) : sum8 m n = BitVec.ofNat 8 ((Memory.bytes m n).map BitVec.toNat).sum := by
  rw [sum8_eq_sum]
  simp [Memory.bytes, Function.comp_def]

end Sys2Proof.Machine
end

