-- ==== Sys2Proof/Laws/State.lean ====
section
/-! SUPPORT. One lemma per field per update of State, so that no later proof unfolds a record update. -/

namespace Sys2Proof.Machine

/-! ### `State.resetWindow` -/

@[simp] theorem State.resetWindow_ref (s : State) : s.resetWindow.ref = s.now := rfl
@[simp] theorem State.resetWindow_lastError (s : State) : s.resetWindow.lastError = s.lastError := rfl
@[simp] theorem State.resetWindow_phase (s : State) : s.resetWindow.phase = s.phase := rfl
@[simp] theorem State.resetWindow_idx (s : State) : s.resetWindow.idx = s.idx := rfl
@[simp] theorem State.resetWindow_txlen (s : State) : s.resetWindow.txlen = s.txlen := rfl
@[simp] theorem State.resetWindow_total (s : State) : s.resetWindow.total = s.total := rfl
@[simp] theorem State.resetWindow_rxcap (s : State) : s.resetWindow.rxcap = s.rxcap := rfl
@[simp] theorem State.resetWindow_txbuf (s : State) : s.resetWindow.txbuf = s.txbuf := rfl
@[simp] theorem State.resetWindow_rxbuf (s : State) : s.resetWindow.rxbuf = s.rxbuf := rfl
@[simp] theorem State.resetWindow_result (s : State) : s.resetWindow.result = s.result := rfl
@[simp] theorem State.resetWindow_dref (s : State) : s.resetWindow.dref = s.dref := rfl
@[simp] theorem State.resetWindow_istep (s : State) : s.resetWindow.istep = s.istep := rfl
@[simp] theorem State.resetWindow_wakePin (s : State) : s.resetWindow.wakePin = s.wakePin := rfl
@[simp] theorem State.resetWindow_lineEn (s : State) : s.resetWindow.lineEn = s.lineEn := rfl
@[simp] theorem State.resetWindow_now (s : State) : s.resetWindow.now = s.now := rfl
@[simp] theorem State.resetWindow_rxq (s : State) : s.resetWindow.rxq = s.rxq := rfl
@[simp] theorem State.resetWindow_txlog (s : State) : s.resetWindow.txlog = s.txlog := rfl
@[simp] theorem State.resetWindow_params (s : State) : s.resetWindow.params = s.params := rfl
@[simp] theorem State.resetWindow_inputs (s : State) : s.resetWindow.inputs = s.inputs := rfl
@[simp] theorem State.resetWindow_hostData (s : State) : s.resetWindow.hostData = s.hostData := rfl
@[simp] theorem State.resetWindow_draws (s : State) : s.resetWindow.draws = s.draws := rfl

/-! ### `State.lineWrite` -/

@[simp] theorem State.lineWrite_ref (s : State) (b : Byte) : (s.lineWrite b).ref = s.ref := rfl
@[simp] theorem State.lineWrite_lastError (s : State) (b : Byte) : (s.lineWrite b).lastError = s.lastError := rfl
@[simp] theorem State.lineWrite_phase (s : State) (b : Byte) : (s.lineWrite b).phase = s.phase := rfl
@[simp] theorem State.lineWrite_idx (s : State) (b : Byte) : (s.lineWrite b).idx = s.idx := rfl
@[simp] theorem State.lineWrite_txlen (s : State) (b : Byte) : (s.lineWrite b).txlen = s.txlen := rfl
@[simp] theorem State.lineWrite_total (s : State) (b : Byte) : (s.lineWrite b).total = s.total := rfl
@[simp] theorem State.lineWrite_rxcap (s : State) (b : Byte) : (s.lineWrite b).rxcap = s.rxcap := rfl
@[simp] theorem State.lineWrite_txbuf (s : State) (b : Byte) : (s.lineWrite b).txbuf = s.txbuf := rfl
@[simp] theorem State.lineWrite_rxbuf (s : State) (b : Byte) : (s.lineWrite b).rxbuf = s.rxbuf := rfl
@[simp] theorem State.lineWrite_result (s : State) (b : Byte) : (s.lineWrite b).result = s.result := rfl
@[simp] theorem State.lineWrite_dref (s : State) (b : Byte) : (s.lineWrite b).dref = s.dref := rfl
@[simp] theorem State.lineWrite_istep (s : State) (b : Byte) : (s.lineWrite b).istep = s.istep := rfl
@[simp] theorem State.lineWrite_wakePin (s : State) (b : Byte) : (s.lineWrite b).wakePin = s.wakePin := rfl
@[simp] theorem State.lineWrite_lineEn (s : State) (b : Byte) : (s.lineWrite b).lineEn = s.lineEn := rfl
@[simp] theorem State.lineWrite_now (s : State) (b : Byte) : (s.lineWrite b).now = s.now := rfl
@[simp] theorem State.lineWrite_rxq (s : State) (b : Byte) : (s.lineWrite b).rxq = s.rxq := rfl
@[simp] theorem State.lineWrite_txlog (s : State) (b : Byte) : (s.lineWrite b).txlog = s.txlog ++ [b] := rfl
@[simp] theorem State.lineWrite_params (s : State) (b : Byte) : (s.lineWrite b).params = s.params := rfl
@[simp] theorem State.lineWrite_inputs (s : State) (b : Byte) : (s.lineWrite b).inputs = s.inputs := rfl
@[simp] theorem State.lineWrite_hostData (s : State) (b : Byte) : (s.lineWrite b).hostData = s.hostData := rfl
@[simp] theorem State.lineWrite_draws (s : State) (b : Byte) : (s.lineWrite b).draws = s.draws := rfl

/-! ### `State.storeRx` -/

@[simp] theorem State.storeRx_ref (s : State) (b : Byte) : (s.storeRx b).ref = s.ref := rfl
@[simp] theorem State.storeRx_lastError (s : State) (b : Byte) : (s.storeRx b).lastError = s.lastError := rfl
@[simp] theorem State.storeRx_phase (s : State) (b : Byte) : (s.storeRx b).phase = s.phase := rfl
@[simp] theorem State.storeRx_idx (s : State) (b : Byte) : (s.storeRx b).idx = s.idx := rfl
@[simp] theorem State.storeRx_txlen (s : State) (b : Byte) : (s.storeRx b).txlen = s.txlen := rfl
@[simp] theorem State.storeRx_total (s : State) (b : Byte) : (s.storeRx b).total = s.total := rfl
@[simp] theorem State.storeRx_rxcap (s : State) (b : Byte) : (s.storeRx b).rxcap = s.rxcap := rfl
@[simp] theorem State.storeRx_txbuf (s : State) (b : Byte) : (s.storeRx b).txbuf = s.txbuf := rfl
@[simp] theorem State.storeRx_rxbuf (s : State) (b : Byte) : (s.storeRx b).rxbuf = Memory.write s.rxbuf s.idx.toNat b := rfl
@[simp] theorem State.storeRx_result (s : State) (b : Byte) : (s.storeRx b).result = s.result := rfl
@[simp] theorem State.storeRx_dref (s : State) (b : Byte) : (s.storeRx b).dref = s.dref := rfl
@[simp] theorem State.storeRx_istep (s : State) (b : Byte) : (s.storeRx b).istep = s.istep := rfl
@[simp] theorem State.storeRx_wakePin (s : State) (b : Byte) : (s.storeRx b).wakePin = s.wakePin := rfl
@[simp] theorem State.storeRx_lineEn (s : State) (b : Byte) : (s.storeRx b).lineEn = s.lineEn := rfl
@[simp] theorem State.storeRx_now (s : State) (b : Byte) : (s.storeRx b).now = s.now := rfl
@[simp] theorem State.storeRx_rxq (s : State) (b : Byte) : (s.storeRx b).rxq = s.rxq := rfl
@[simp] theorem State.storeRx_txlog (s : State) (b : Byte) : (s.storeRx b).txlog = s.txlog := rfl
@[simp] theorem State.storeRx_params (s : State) (b : Byte) : (s.storeRx b).params = s.params := rfl
@[simp] theorem State.storeRx_inputs (s : State) (b : Byte) : (s.storeRx b).inputs = s.inputs := rfl
@[simp] theorem State.storeRx_hostData (s : State) (b : Byte) : (s.storeRx b).hostData = s.hostData := rfl
@[simp] theorem State.storeRx_draws (s : State) (b : Byte) : (s.storeRx b).draws = s.draws := rfl

/-! ### `State.nextIdx` -/

@[simp] theorem State.nextIdx_ref (s : State) : s.nextIdx.ref = s.ref := rfl
@[simp] theorem State.nextIdx_lastError (s : State) : s.nextIdx.lastError = s.lastError := rfl
@[simp] theorem State.nextIdx_phase (s : State) : s.nextIdx.phase = s.phase := rfl
@[simp] theorem State.nextIdx_idx (s : State) : s.nextIdx.idx = s.idx + 1 := rfl
@[simp] theorem State.nextIdx_txlen (s : State) : s.nextIdx.txlen = s.txlen := rfl
@[simp] theorem State.nextIdx_total (s : State) : s.nextIdx.total = s.total := rfl
@[simp] theorem State.nextIdx_rxcap (s : State) : s.nextIdx.rxcap = s.rxcap := rfl
@[simp] theorem State.nextIdx_txbuf (s : State) : s.nextIdx.txbuf = s.txbuf := rfl
@[simp] theorem State.nextIdx_rxbuf (s : State) : s.nextIdx.rxbuf = s.rxbuf := rfl
@[simp] theorem State.nextIdx_result (s : State) : s.nextIdx.result = s.result := rfl
@[simp] theorem State.nextIdx_dref (s : State) : s.nextIdx.dref = s.dref := rfl
@[simp] theorem State.nextIdx_istep (s : State) : s.nextIdx.istep = s.istep := rfl
@[simp] theorem State.nextIdx_wakePin (s : State) : s.nextIdx.wakePin = s.wakePin := rfl
@[simp] theorem State.nextIdx_lineEn (s : State) : s.nextIdx.lineEn = s.lineEn := rfl
@[simp] theorem State.nextIdx_now (s : State) : s.nextIdx.now = s.now := rfl
@[simp] theorem State.nextIdx_rxq (s : State) : s.nextIdx.rxq = s.rxq := rfl
@[simp] theorem State.nextIdx_txlog (s : State) : s.nextIdx.txlog = s.txlog := rfl
@[simp] theorem State.nextIdx_params (s : State) : s.nextIdx.params = s.params := rfl
@[simp] theorem State.nextIdx_inputs (s : State) : s.nextIdx.inputs = s.inputs := rfl
@[simp] theorem State.nextIdx_hostData (s : State) : s.nextIdx.hostData = s.hostData := rfl
@[simp] theorem State.nextIdx_draws (s : State) : s.nextIdx.draws = s.draws := rfl

/-! ### `State.startTransmit` -/

@[simp] theorem State.startTransmit_ref (s : State) (n : Count) : (s.startTransmit n).ref = s.ref := rfl
@[simp] theorem State.startTransmit_lastError (s : State) (n : Count) : (s.startTransmit n).lastError = s.lastError := rfl
@[simp] theorem State.startTransmit_phase (s : State) (n : Count) : (s.startTransmit n).phase = .txGate := rfl
@[simp] theorem State.startTransmit_idx (s : State) (n : Count) : (s.startTransmit n).idx = 0 := rfl
@[simp] theorem State.startTransmit_txlen (s : State) (n : Count) : (s.startTransmit n).txlen = n := rfl
@[simp] theorem State.startTransmit_total (s : State) (n : Count) : (s.startTransmit n).total = s.total := rfl
@[simp] theorem State.startTransmit_rxcap (s : State) (n : Count) : (s.startTransmit n).rxcap = s.rxcap := rfl
@[simp] theorem State.startTransmit_txbuf (s : State) (n : Count) : (s.startTransmit n).txbuf = s.txbuf := rfl
@[simp] theorem State.startTransmit_rxbuf (s : State) (n : Count) : (s.startTransmit n).rxbuf = s.rxbuf := rfl
@[simp] theorem State.startTransmit_result (s : State) (n : Count) : (s.startTransmit n).result = s.result := rfl
@[simp] theorem State.startTransmit_dref (s : State) (n : Count) : (s.startTransmit n).dref = s.dref := rfl
@[simp] theorem State.startTransmit_istep (s : State) (n : Count) : (s.startTransmit n).istep = s.istep := rfl
@[simp] theorem State.startTransmit_wakePin (s : State) (n : Count) : (s.startTransmit n).wakePin = s.wakePin := rfl
@[simp] theorem State.startTransmit_lineEn (s : State) (n : Count) : (s.startTransmit n).lineEn = s.lineEn := rfl
@[simp] theorem State.startTransmit_now (s : State) (n : Count) : (s.startTransmit n).now = s.now := rfl
@[simp] theorem State.startTransmit_rxq (s : State) (n : Count) : (s.startTransmit n).rxq = s.rxq := rfl
@[simp] theorem State.startTransmit_txlog (s : State) (n : Count) : (s.startTransmit n).txlog = s.txlog := rfl
@[simp] theorem State.startTransmit_params (s : State) (n : Count) : (s.startTransmit n).params = s.params := rfl
@[simp] theorem State.startTransmit_inputs (s : State) (n : Count) : (s.startTransmit n).inputs = s.inputs := rfl
@[simp] theorem State.startTransmit_hostData (s : State) (n : Count) : (s.startTransmit n).hostData = s.hostData := rfl
@[simp] theorem State.startTransmit_draws (s : State) (n : Count) : (s.startTransmit n).draws = s.draws := rfl

/-! ### `State.startReceive` -/

@[simp] theorem State.startReceive_ref (s : State) (n : Count) : (s.startReceive n).ref = s.ref := rfl
@[simp] theorem State.startReceive_lastError (s : State) (n : Count) : (s.startReceive n).lastError = s.lastError := rfl
@[simp] theorem State.startReceive_phase (s : State) (n : Count) : (s.startReceive n).phase = .rxAssemble := rfl
@[simp] theorem State.startReceive_idx (s : State) (n : Count) : (s.startReceive n).idx = 0 := rfl
@[simp] theorem State.startReceive_txlen (s : State) (n : Count) : (s.startReceive n).txlen = s.txlen := rfl
@[simp] theorem State.startReceive_total (s : State) (n : Count) : (s.startReceive n).total = s.total := rfl
@[simp] theorem State.startReceive_rxcap (s : State) (n : Count) : (s.startReceive n).rxcap = n := rfl
@[simp] theorem State.startReceive_txbuf (s : State) (n : Count) : (s.startReceive n).txbuf = s.txbuf := rfl
@[simp] theorem State.startReceive_rxbuf (s : State) (n : Count) : (s.startReceive n).rxbuf = s.rxbuf := rfl
@[simp] theorem State.startReceive_result (s : State) (n : Count) : (s.startReceive n).result = s.result := rfl
@[simp] theorem State.startReceive_dref (s : State) (n : Count) : (s.startReceive n).dref = s.dref := rfl
@[simp] theorem State.startReceive_istep (s : State) (n : Count) : (s.startReceive n).istep = s.istep := rfl
@[simp] theorem State.startReceive_wakePin (s : State) (n : Count) : (s.startReceive n).wakePin = s.wakePin := rfl
@[simp] theorem State.startReceive_lineEn (s : State) (n : Count) : (s.startReceive n).lineEn = s.lineEn := rfl
@[simp] theorem State.startReceive_now (s : State) (n : Count) : (s.startReceive n).now = s.now := rfl
@[simp] theorem State.startReceive_rxq (s : State) (n : Count) : (s.startReceive n).rxq = s.rxq := rfl
@[simp] theorem State.startReceive_txlog (s : State) (n : Count) : (s.startReceive n).txlog = s.txlog := rfl
@[simp] theorem State.startReceive_params (s : State) (n : Count) : (s.startReceive n).params = s.params := rfl
@[simp] theorem State.startReceive_inputs (s : State) (n : Count) : (s.startReceive n).inputs = s.inputs := rfl
@[simp] theorem State.startReceive_hostData (s : State) (n : Count) : (s.startReceive n).hostData = s.hostData := rfl
@[simp] theorem State.startReceive_draws (s : State) (n : Count) : (s.startReceive n).draws = s.draws := rfl

/-! ### `State.spoilLastError` -/

@[simp] theorem State.spoilLastError_ref (s : State) : s.spoilLastError.ref = s.ref := rfl
@[simp] theorem State.spoilLastError_lastError (s : State) : s.spoilLastError.lastError = Config.anyErrorCode s.draws := rfl
@[simp] theorem State.spoilLastError_phase (s : State) : s.spoilLastError.phase = s.phase := rfl
@[simp] theorem State.spoilLastError_idx (s : State) : s.spoilLastError.idx = s.idx := rfl
@[simp] theorem State.spoilLastError_txlen (s : State) : s.spoilLastError.txlen = s.txlen := rfl
@[simp] theorem State.spoilLastError_total (s : State) : s.spoilLastError.total = s.total := rfl
@[simp] theorem State.spoilLastError_rxcap (s : State) : s.spoilLastError.rxcap = s.rxcap := rfl
@[simp] theorem State.spoilLastError_txbuf (s : State) : s.spoilLastError.txbuf = s.txbuf := rfl
@[simp] theorem State.spoilLastError_rxbuf (s : State) : s.spoilLastError.rxbuf = s.rxbuf := rfl
@[simp] theorem State.spoilLastError_result (s : State) : s.spoilLastError.result = s.result := rfl
@[simp] theorem State.spoilLastError_dref (s : State) : s.spoilLastError.dref = s.dref := rfl
@[simp] theorem State.spoilLastError_istep (s : State) : s.spoilLastError.istep = s.istep := rfl
@[simp] theorem State.spoilLastError_wakePin (s : State) : s.spoilLastError.wakePin = s.wakePin := rfl
@[simp] theorem State.spoilLastError_lineEn (s : State) : s.spoilLastError.lineEn = s.lineEn := rfl
@[simp] theorem State.spoilLastError_now (s : State) : s.spoilLastError.now = s.now := rfl
@[simp] theorem State.spoilLastError_rxq (s : State) : s.spoilLastError.rxq = s.rxq := rfl
@[simp] theorem State.spoilLastError_txlog (s : State) : s.spoilLastError.txlog = s.txlog := rfl
@[simp] theorem State.spoilLastError_params (s : State) : s.spoilLastError.params = s.params := rfl
@[simp] theorem State.spoilLastError_inputs (s : State) : s.spoilLastError.inputs = s.inputs := rfl
@[simp] theorem State.spoilLastError_hostData (s : State) : s.spoilLastError.hostData = s.hostData := rfl
@[simp] theorem State.spoilLastError_draws (s : State) : s.spoilLastError.draws = s.draws + 1 := rfl

/-! ### `State.finish` -/

@[simp] theorem State.finish_ref (s : State) (r : Result) : (s.finish r).ref = s.ref := rfl
@[simp] theorem State.finish_lastError (s : State) (r : Result) : (s.finish r).lastError = s.lastError := rfl
@[simp] theorem State.finish_phase (s : State) (r : Result) : (s.finish r).phase = .idle := rfl
@[simp] theorem State.finish_idx (s : State) (r : Result) : (s.finish r).idx = s.idx := rfl
@[simp] theorem State.finish_txlen (s : State) (r : Result) : (s.finish r).txlen = s.txlen := rfl
@[simp] theorem State.finish_total (s : State) (r : Result) : (s.finish r).total = s.total := rfl
@[simp] theorem State.finish_rxcap (s : State) (r : Result) : (s.finish r).rxcap = s.rxcap := rfl
@[simp] theorem State.finish_txbuf (s : State) (r : Result) : (s.finish r).txbuf = s.txbuf := rfl
@[simp] theorem State.finish_rxbuf (s : State) (r : Result) : (s.finish r).rxbuf = s.rxbuf := rfl
@[simp] theorem State.finish_result (s : State) (r : Result) : (s.finish r).result = r := rfl
@[simp] theorem State.finish_dref (s : State) (r : Result) : (s.finish r).dref = s.dref := rfl
@[simp] theorem State.finish_istep (s : State) (r : Result) : (s.finish r).istep = s.istep := rfl
@[simp] theorem State.finish_wakePin (s : State) (r : Result) : (s.finish r).wakePin = s.wakePin := rfl
@[simp] theorem State.finish_lineEn (s : State) (r : Result) : (s.finish r).lineEn = s.lineEn := rfl
@[simp] theorem State.finish_now (s : State) (r : Result) : (s.finish r).now = s.now := rfl
@[simp] theorem State.finish_rxq (s : State) (r : Result) : (s.finish r).rxq = s.rxq := rfl
@[simp] theorem State.finish_txlog (s : State) (r : Result) : (s.finish r).txlog = s.txlog := rfl
@[simp] theorem State.finish_params (s : State) (r : Result) : (s.finish r).params = s.params := rfl
@[simp] theorem State.finish_inputs (s : State) (r : Result) : (s.finish r).inputs = s.inputs := rfl
@[simp] theorem State.finish_hostData (s : State) (r : Result) : (s.finish r).hostData = s.hostData := rfl
@[simp] theorem State.finish_draws (s : State) (r : Result) : (s.finish r).draws = s.draws := rfl

/-! ### `State.finishInit` -/

@[simp] theorem State.finishInit_ref (s : State) (b : Bool) : (s.finishInit b).ref = s.ref := rfl
@[simp] theorem State.finishInit_lastError (s : State) (b : Bool) : (s.finishInit b).lastError = s.lastError := rfl
@[simp] theorem State.finishInit_phase (s : State) (b : Bool) : (s.finishInit b).phase = .idle := rfl
@[simp] theorem State.finishInit_idx (s : State) (b : Bool) : (s.finishInit b).idx = s.idx := rfl
@[simp] theorem State.finishInit_txlen (s : State) (b : Bool) : (s.finishInit b).txlen = s.txlen := rfl
@[simp] theorem State.finishInit_total (s : State) (b : Bool) : (s.finishInit b).total = s.total := rfl
@[simp] theorem State.finishInit_rxcap (s : State) (b : Bool) : (s.finishInit b).rxcap = s.rxcap := rfl
@[simp] theorem State.finishInit_txbuf (s : State) (b : Bool) : (s.finishInit b).txbuf = s.txbuf := rfl
@[simp] theorem State.finishInit_rxbuf (s : State) (b : Bool) : (s.finishInit b).rxbuf = s.rxbuf := rfl
@[simp] theorem State.finishInit_result (s : State) (b : Bool) : (s.finishInit b).result = .bool b := rfl
@[simp] theorem State.finishInit_dref (s : State) (b : Bool) : (s.finishInit b).dref = s.dref := rfl
@[simp] theorem State.finishInit_istep (s : State) (b : Bool) : (s.finishInit b).istep = .notRunning := rfl
@[simp] theorem State.finishInit_wakePin (s : State) (b : Bool) : (s.finishInit b).wakePin = s.wakePin := rfl
@[simp] theorem State.finishInit_lineEn (s : State) (b : Bool) : (s.finishInit b).lineEn = s.lineEn := rfl
@[simp] theorem State.finishInit_now (s : State) (b : Bool) : (s.finishInit b).now = s.now := rfl
@[simp] theorem State.finishInit_rxq (s : State) (b : Bool) : (s.finishInit b).rxq = s.rxq := rfl
@[simp] theorem State.finishInit_txlog (s : State) (b : Bool) : (s.finishInit b).txlog = s.txlog := rfl
@[simp] theorem State.finishInit_params (s : State) (b : Bool) : (s.finishInit b).params = s.params := rfl
@[simp] theorem State.finishInit_inputs (s : State) (b : Bool) : (s.finishInit b).inputs = s.inputs := rfl
@[simp] theorem State.finishInit_hostData (s : State) (b : Bool) : (s.finishInit b).hostData = s.hostData := rfl
@[simp] theorem State.finishInit_draws (s : State) (b : Bool) : (s.finishInit b).draws = s.draws := rfl

/-! ### `State.receiveInInit` -/

@[simp] theorem State.receiveInInit_ref (s : State) (n : InitStep) : (s.receiveInInit n).ref = s.ref := rfl
@[simp] theorem State.receiveInInit_lastError (s : State) (n : InitStep) : (s.receiveInInit n).lastError = s.lastError := rfl
@[simp] theorem State.receiveInInit_phase (s : State) (n : InitStep) : (s.receiveInInit n).phase = .rxAssemble := rfl
@[simp] theorem State.receiveInInit_idx (s : State) (n : InitStep) : (s.receiveInInit n).idx = 0 := rfl
@[simp] theorem State.receiveInInit_txlen (s : State) (n : InitStep) : (s.receiveInInit n).txlen = s.txlen := rfl
@[simp] theorem State.receiveInInit_total (s : State) (n : InitStep) : (s.receiveInInit n).total = s.total := rfl
@[simp] theorem State.receiveInInit_rxcap (s : State) (n : InitStep) : (s.receiveInInit n).rxcap = s.params.initRxCap := rfl
@[simp] theorem State.receiveInInit_txbuf (s : State) (n : InitStep) : (s.receiveInInit n).txbuf = s.txbuf := rfl
@[simp] theorem State.receiveInInit_rxbuf (s : State) (n : InitStep) : (s.receiveInInit n).rxbuf = s.rxbuf := rfl
@[simp] theorem State.receiveInInit_result (s : State) (n : InitStep) : (s.receiveInInit n).result = s.result := rfl
@[simp] theorem State.receiveInInit_dref (s : State) (n : InitStep) : (s.receiveInInit n).dref = s.dref := rfl
@[simp] theorem State.receiveInInit_istep (s : State) (n : InitStep) : (s.receiveInInit n).istep = n := rfl
@[simp] theorem State.receiveInInit_wakePin (s : State) (n : InitStep) : (s.receiveInInit n).wakePin = s.wakePin := rfl
@[simp] theorem State.receiveInInit_lineEn (s : State) (n : InitStep) : (s.receiveInInit n).lineEn = s.lineEn := rfl
@[simp] theorem State.receiveInInit_now (s : State) (n : InitStep) : (s.receiveInInit n).now = s.now := rfl
@[simp] theorem State.receiveInInit_rxq (s : State) (n : InitStep) : (s.receiveInInit n).rxq = s.rxq := rfl
@[simp] theorem State.receiveInInit_txlog (s : State) (n : InitStep) : (s.receiveInInit n).txlog = s.txlog := rfl
@[simp] theorem State.receiveInInit_params (s : State) (n : InitStep) : (s.receiveInInit n).params = s.params := rfl
@[simp] theorem State.receiveInInit_inputs (s : State) (n : InitStep) : (s.receiveInInit n).inputs = s.inputs := rfl
@[simp] theorem State.receiveInInit_hostData (s : State) (n : InitStep) : (s.receiveInInit n).hostData = s.hostData := rfl
@[simp] theorem State.receiveInInit_draws (s : State) (n : InitStep) : (s.receiveInInit n).draws = s.draws := rfl

/-! ### `State.loadStartRequest` -/

@[simp] theorem State.loadStartRequest_ref (s : State) : s.loadStartRequest.ref = s.ref := rfl
@[simp] theorem State.loadStartRequest_lastError (s : State) : s.loadStartRequest.lastError = s.lastError := rfl
@[simp] theorem State.loadStartRequest_phase (s : State) : s.loadStartRequest.phase = s.phase := rfl
@[simp] theorem State.loadStartRequest_idx (s : State) : s.loadStartRequest.idx = s.idx := rfl
@[simp] theorem State.loadStartRequest_txlen (s : State) : s.loadStartRequest.txlen = s.txlen := rfl
@[simp] theorem State.loadStartRequest_total (s : State) : s.loadStartRequest.total = s.total := rfl
@[simp] theorem State.loadStartRequest_rxcap (s : State) : s.loadStartRequest.rxcap = s.rxcap := rfl
@[simp] theorem State.loadStartRequest_rxbuf (s : State) : s.loadStartRequest.rxbuf = s.rxbuf := rfl
@[simp] theorem State.loadStartRequest_result (s : State) : s.loadStartRequest.result = s.result := rfl
@[simp] theorem State.loadStartRequest_dref (s : State) : s.loadStartRequest.dref = s.dref := rfl
@[simp] theorem State.loadStartRequest_istep (s : State) : s.loadStartRequest.istep = s.istep := rfl
@[simp] theorem State.loadStartRequest_wakePin (s : State) : s.loadStartRequest.wakePin = s.wakePin := rfl
@[simp] theorem State.loadStartRequest_lineEn (s : State) : s.loadStartRequest.lineEn = s.lineEn := rfl
@[simp] theorem State.loadStartRequest_now (s : State) : s.loadStartRequest.now = s.now := rfl
@[simp] theorem State.loadStartRequest_rxq (s : State) : s.loadStartRequest.rxq = s.rxq := rfl
@[simp] theorem State.loadStartRequest_txlog (s : State) : s.loadStartRequest.txlog = s.txlog := rfl
@[simp] theorem State.loadStartRequest_params (s : State) : s.loadStartRequest.params = s.params := rfl
@[simp] theorem State.loadStartRequest_inputs (s : State) : s.loadStartRequest.inputs = s.inputs := rfl
@[simp] theorem State.loadStartRequest_hostData (s : State) : s.loadStartRequest.hostData = s.hostData := rfl
@[simp] theorem State.loadStartRequest_draws (s : State) : s.loadStartRequest.draws = s.draws := rfl

/-! ### `State.loadSessionRequest` -/

@[simp] theorem State.loadSessionRequest_ref (s : State) : s.loadSessionRequest.ref = s.ref := rfl
@[simp] theorem State.loadSessionRequest_lastError (s : State) : s.loadSessionRequest.lastError = s.lastError := rfl
@[simp] theorem State.loadSessionRequest_phase (s : State) : s.loadSessionRequest.phase = s.phase := rfl
@[simp] theorem State.loadSessionRequest_idx (s : State) : s.loadSessionRequest.idx = s.idx := rfl
@[simp] theorem State.loadSessionRequest_txlen (s : State) : s.loadSessionRequest.txlen = s.txlen := rfl
@[simp] theorem State.loadSessionRequest_total (s : State) : s.loadSessionRequest.total = s.total := rfl
@[simp] theorem State.loadSessionRequest_rxcap (s : State) : s.loadSessionRequest.rxcap = s.rxcap := rfl
@[simp] theorem State.loadSessionRequest_rxbuf (s : State) : s.loadSessionRequest.rxbuf = s.rxbuf := rfl
@[simp] theorem State.loadSessionRequest_result (s : State) : s.loadSessionRequest.result = s.result := rfl
@[simp] theorem State.loadSessionRequest_dref (s : State) : s.loadSessionRequest.dref = s.dref := rfl
@[simp] theorem State.loadSessionRequest_istep (s : State) : s.loadSessionRequest.istep = s.istep := rfl
@[simp] theorem State.loadSessionRequest_wakePin (s : State) : s.loadSessionRequest.wakePin = s.wakePin := rfl
@[simp] theorem State.loadSessionRequest_lineEn (s : State) : s.loadSessionRequest.lineEn = s.lineEn := rfl
@[simp] theorem State.loadSessionRequest_now (s : State) : s.loadSessionRequest.now = s.now := rfl
@[simp] theorem State.loadSessionRequest_rxq (s : State) : s.loadSessionRequest.rxq = s.rxq := rfl
@[simp] theorem State.loadSessionRequest_txlog (s : State) : s.loadSessionRequest.txlog = s.txlog := rfl
@[simp] theorem State.loadSessionRequest_params (s : State) : s.loadSessionRequest.params = s.params := rfl
@[simp] theorem State.loadSessionRequest_inputs (s : State) : s.loadSessionRequest.inputs = s.inputs := rfl
@[simp] theorem State.loadSessionRequest_hostData (s : State) : s.loadSessionRequest.hostData = s.hostData := rfl
@[simp] theorem State.loadSessionRequest_draws (s : State) : s.loadSessionRequest.draws = s.draws := rfl

/-! ### `State.sendSessionInInit` -/

@[simp] theorem State.sendSessionInInit_ref (s : State) : s.sendSessionInInit.ref = s.ref := rfl
@[simp] theorem State.sendSessionInInit_lastError (s : State) : s.sendSessionInInit.lastError = s.lastError := rfl
@[simp] theorem State.sendSessionInInit_phase (s : State) : s.sendSessionInInit.phase = .txGate := rfl
@[simp] theorem State.sendSessionInInit_idx (s : State) : s.sendSessionInInit.idx = 0 := rfl
@[simp] theorem State.sendSessionInInit_txlen (s : State) : s.sendSessionInInit.txlen = 7 := rfl
@[simp] theorem State.sendSessionInInit_total (s : State) : s.sendSessionInInit.total = s.total := rfl
@[simp] theorem State.sendSessionInInit_rxcap (s : State) : s.sendSessionInInit.rxcap = s.rxcap := rfl
@[simp] theorem State.sendSessionInInit_txbuf (s : State) : s.sendSessionInInit.txbuf = s.loadSessionRequest.txbuf := rfl
@[simp] theorem State.sendSessionInInit_rxbuf (s : State) : s.sendSessionInInit.rxbuf = s.rxbuf := rfl
@[simp] theorem State.sendSessionInInit_result (s : State) : s.sendSessionInInit.result = s.result := rfl
@[simp] theorem State.sendSessionInInit_dref (s : State) : s.sendSessionInInit.dref = s.dref := rfl
@[simp] theorem State.sendSessionInInit_istep (s : State) : s.sendSessionInInit.istep = .sendSession := rfl
@[simp] theorem State.sendSessionInInit_wakePin (s : State) : s.sendSessionInInit.wakePin = s.wakePin := rfl
@[simp] theorem State.sendSessionInInit_lineEn (s : State) : s.sendSessionInInit.lineEn = s.lineEn := rfl
@[simp] theorem State.sendSessionInInit_now (s : State) : s.sendSessionInInit.now = s.now := rfl
@[simp] theorem State.sendSessionInInit_rxq (s : State) : s.sendSessionInInit.rxq = s.rxq := rfl
@[simp] theorem State.sendSessionInInit_txlog (s : State) : s.sendSessionInInit.txlog = s.txlog := rfl
@[simp] theorem State.sendSessionInInit_params (s : State) : s.sendSessionInInit.params = s.params := rfl
@[simp] theorem State.sendSessionInInit_inputs (s : State) : s.sendSessionInInit.inputs = s.inputs := rfl
@[simp] theorem State.sendSessionInInit_hostData (s : State) : s.sendSessionInInit.hostData = s.hostData := rfl
@[simp] theorem State.sendSessionInInit_draws (s : State) : s.sendSessionInInit.draws = s.draws := rfl

/-! ### `State.settleLastError` -/

@[simp] theorem State.settleLastError_ref (s : State) (r : OpResult) : (s.settleLastError r).ref = s.ref := by cases r <;> rfl
@[simp] theorem State.settleLastError_phase (s : State) (r : OpResult) : (s.settleLastError r).phase = s.phase := by cases r <;> rfl
@[simp] theorem State.settleLastError_idx (s : State) (r : OpResult) : (s.settleLastError r).idx = s.idx := by cases r <;> rfl
@[simp] theorem State.settleLastError_txlen (s : State) (r : OpResult) : (s.settleLastError r).txlen = s.txlen := by cases r <;> rfl
@[simp] theorem State.settleLastError_total (s : State) (r : OpResult) : (s.settleLastError r).total = s.total := by cases r <;> rfl
@[simp] theorem State.settleLastError_rxcap (s : State) (r : OpResult) : (s.settleLastError r).rxcap = s.rxcap := by cases r <;> rfl
@[simp] theorem State.settleLastError_txbuf (s : State) (r : OpResult) : (s.settleLastError r).txbuf = s.txbuf := by cases r <;> rfl
@[simp] theorem State.settleLastError_rxbuf (s : State) (r : OpResult) : (s.settleLastError r).rxbuf = s.rxbuf := by cases r <;> rfl
@[simp] theorem State.settleLastError_result (s : State) (r : OpResult) : (s.settleLastError r).result = s.result := by cases r <;> rfl
@[simp] theorem State.settleLastError_dref (s : State) (r : OpResult) : (s.settleLastError r).dref = s.dref := by cases r <;> rfl
@[simp] theorem State.settleLastError_istep (s : State) (r : OpResult) : (s.settleLastError r).istep = s.istep := by cases r <;> rfl
@[simp] theorem State.settleLastError_wakePin (s : State) (r : OpResult) : (s.settleLastError r).wakePin = s.wakePin := by cases r <;> rfl
@[simp] theorem State.settleLastError_lineEn (s : State) (r : OpResult) : (s.settleLastError r).lineEn = s.lineEn := by cases r <;> rfl
@[simp] theorem State.settleLastError_now (s : State) (r : OpResult) : (s.settleLastError r).now = s.now := by cases r <;> rfl
@[simp] theorem State.settleLastError_rxq (s : State) (r : OpResult) : (s.settleLastError r).rxq = s.rxq := by cases r <;> rfl
@[simp] theorem State.settleLastError_txlog (s : State) (r : OpResult) : (s.settleLastError r).txlog = s.txlog := by cases r <;> rfl
@[simp] theorem State.settleLastError_params (s : State) (r : OpResult) : (s.settleLastError r).params = s.params := by cases r <;> rfl
@[simp] theorem State.settleLastError_inputs (s : State) (r : OpResult) : (s.settleLastError r).inputs = s.inputs := by cases r <;> rfl
@[simp] theorem State.settleLastError_hostData (s : State) (r : OpResult) : (s.settleLastError r).hostData = s.hostData := by cases r <;> rfl

/-! ### `State.assertReset` -/

@[simp] theorem State.assertReset_ref (s : State) : s.assertReset.ref = wrapT s.params.timeWidth (Config.anyTime s.draws) := by simp only [State.assertReset]
@[simp] theorem State.assertReset_dref (s : State) : s.assertReset.dref = wrapT s.params.timeWidth (Config.anyTime (s.draws + 1)) := by simp only [State.assertReset]
@[simp] theorem State.assertReset_lastError (s : State) : s.assertReset.lastError = .errNone := by simp only [State.assertReset]
@[simp] theorem State.assertReset_phase (s : State) : s.assertReset.phase = .idle := by simp only [State.assertReset]
@[simp] theorem State.assertReset_txbuf (s : State) : s.assertReset.txbuf = Memory.unspecified s.draws := by simp only [State.assertReset]
@[simp] theorem State.assertReset_rxbuf (s : State) : s.assertReset.rxbuf = Memory.unspecified (s.draws + bufSize) := by simp only [State.assertReset]
@[simp] theorem State.assertReset_result (s : State) : s.assertReset.result = .none := by simp only [State.assertReset]
@[simp] theorem State.assertReset_istep (s : State) : s.assertReset.istep = .notRunning := by simp only [State.assertReset]
@[simp] theorem State.assertReset_wakePin (s : State) : s.assertReset.wakePin = true := by simp only [State.assertReset]
@[simp] theorem State.assertReset_lineEn (s : State) : s.assertReset.lineEn = true := by simp only [State.assertReset]
@[simp] theorem State.assertReset_now (s : State) : s.assertReset.now = s.now := by simp only [State.assertReset]
@[simp] theorem State.assertReset_rxq (s : State) : s.assertReset.rxq = s.rxq := by simp only [State.assertReset]
@[simp] theorem State.assertReset_txlog (s : State) : s.assertReset.txlog = s.txlog := by simp only [State.assertReset]
@[simp] theorem State.assertReset_params (s : State) : s.assertReset.params = s.params := by simp only [State.assertReset]
@[simp] theorem State.assertReset_inputs (s : State) : s.assertReset.inputs = s.inputs := by simp only [State.assertReset]
@[simp] theorem State.assertReset_hostData (s : State) : s.assertReset.hostData = s.hostData := by simp only [State.assertReset]
@[simp] theorem State.assertReset_draws (s : State) : s.assertReset.draws = s.draws + 2 * bufSize := by simp only [State.assertReset]

/-! ### `State.advance` -/

@[simp] theorem State.advance_ref (s : State) (d : Nat) : (s.advance d).ref = s.ref := rfl
@[simp] theorem State.advance_lastError (s : State) (d : Nat) : (s.advance d).lastError = s.lastError := rfl
@[simp] theorem State.advance_phase (s : State) (d : Nat) : (s.advance d).phase = s.phase := rfl
@[simp] theorem State.advance_idx (s : State) (d : Nat) : (s.advance d).idx = s.idx := rfl
@[simp] theorem State.advance_txlen (s : State) (d : Nat) : (s.advance d).txlen = s.txlen := rfl
@[simp] theorem State.advance_total (s : State) (d : Nat) : (s.advance d).total = s.total := rfl
@[simp] theorem State.advance_rxcap (s : State) (d : Nat) : (s.advance d).rxcap = s.rxcap := rfl
@[simp] theorem State.advance_txbuf (s : State) (d : Nat) : (s.advance d).txbuf = s.txbuf := rfl
@[simp] theorem State.advance_rxbuf (s : State) (d : Nat) : (s.advance d).rxbuf = s.rxbuf := rfl
@[simp] theorem State.advance_result (s : State) (d : Nat) : (s.advance d).result = s.result := rfl
@[simp] theorem State.advance_dref (s : State) (d : Nat) : (s.advance d).dref = s.dref := rfl
@[simp] theorem State.advance_istep (s : State) (d : Nat) : (s.advance d).istep = s.istep := rfl
@[simp] theorem State.advance_wakePin (s : State) (d : Nat) : (s.advance d).wakePin = s.wakePin := rfl
@[simp] theorem State.advance_lineEn (s : State) (d : Nat) : (s.advance d).lineEn = s.lineEn := rfl
@[simp] theorem State.advance_now (s : State) (d : Nat) : (s.advance d).now = wrapT s.params.timeWidth (s.now + d) := rfl
@[simp] theorem State.advance_rxq (s : State) (d : Nat) : (s.advance d).rxq = s.rxq := rfl
@[simp] theorem State.advance_txlog (s : State) (d : Nat) : (s.advance d).txlog = s.txlog := rfl
@[simp] theorem State.advance_params (s : State) (d : Nat) : (s.advance d).params = s.params := rfl
@[simp] theorem State.advance_inputs (s : State) (d : Nat) : (s.advance d).inputs = s.inputs := rfl
@[simp] theorem State.advance_hostData (s : State) (d : Nat) : (s.advance d).hostData = s.hostData := rfl
@[simp] theorem State.advance_draws (s : State) (d : Nat) : (s.advance d).draws = s.draws := rfl

/-! ### `State.gap` -/

@[simp] theorem State.gap_ref (s : State) : s.gap.ref = s.ref := rfl
@[simp] theorem State.gap_lastError (s : State) : s.gap.lastError = s.lastError := rfl
@[simp] theorem State.gap_phase (s : State) : s.gap.phase = s.phase := rfl
@[simp] theorem State.gap_idx (s : State) : s.gap.idx = s.idx := rfl
@[simp] theorem State.gap_txlen (s : State) : s.gap.txlen = s.txlen := rfl
@[simp] theorem State.gap_total (s : State) : s.gap.total = s.total := rfl
@[simp] theorem State.gap_rxcap (s : State) : s.gap.rxcap = s.rxcap := rfl
@[simp] theorem State.gap_txbuf (s : State) : s.gap.txbuf = s.txbuf := rfl
@[simp] theorem State.gap_rxbuf (s : State) : s.gap.rxbuf = s.rxbuf := rfl
@[simp] theorem State.gap_result (s : State) : s.gap.result = s.result := rfl
@[simp] theorem State.gap_dref (s : State) : s.gap.dref = s.dref := rfl
@[simp] theorem State.gap_istep (s : State) : s.gap.istep = s.istep := rfl
@[simp] theorem State.gap_wakePin (s : State) : s.gap.wakePin = s.wakePin := rfl
@[simp] theorem State.gap_lineEn (s : State) : s.gap.lineEn = s.lineEn := rfl
@[simp] theorem State.gap_now (s : State) : s.gap.now = wrapT s.params.timeWidth (s.now + Config.pollGap s.draws) := rfl
@[simp] theorem State.gap_rxq (s : State) : s.gap.rxq = s.rxq := rfl
@[simp] theorem State.gap_txlog (s : State) : s.gap.txlog = s.txlog := rfl
@[simp] theorem State.gap_params (s : State) : s.gap.params = s.params := rfl
@[simp] theorem State.gap_inputs (s : State) : s.gap.inputs = s.inputs := rfl
@[simp] theorem State.gap_hostData (s : State) : s.gap.hostData = s.hostData := rfl
@[simp] theorem State.gap_draws (s : State) : s.gap.draws = s.draws + 1 := rfl

/-! ### The ends of `settleLastError` -/

@[simp] theorem State.settleLastError_finished (s : State) : s.settleLastError .finished = s.spoilLastError := rfl

@[simp] theorem State.settleLastError_pending (s : State) : s.settleLastError .pending = s.spoilLastError := rfl

@[simp] theorem State.settleLastError_error (s : State) (c : ErrorCode) : s.settleLastError (.error c) = s := rfl

end Sys2Proof.Machine
end

