-- ==== Sys2Proof/Laws/Ops.lean ====
section
/-! SUPPORT. What each shared operation can do, said once: reading the line, ending an operation, raising an error. -/

namespace Sys2Proof.Machine

theorem micros_eq (ms : Ms) : micros ms = ms.toNat * 1000 := rfl

/-! ## The clock at any width (00_scope.md R14, R17) -/

theorem wrapT_lt (width n : Nat) : wrapT width n < 2 ^ width := Nat.mod_lt _ (Nat.two_pow_pos width)

/-- `sub_T` as an integer is the difference reduced modulo 2^TIME_WIDTH. -/
theorem subT_cast (width : Nat) (a b : Time) : (subT width a b : Int) = ((a : Int) - b) % ((2 ^ width : Nat) : Int) := by
  have := Int.emod_nonneg ((a : Int) - b) (b := ((2 ^ width : Nat) : Int)) (by have := Nat.two_pow_pos width; omega)
  unfold subT
  omega

/-- The difference is the true time passed whenever fewer than 2^TIME_WIDTH microseconds have, whether or not the clock
wrapped (40_timing_window.md R113). -/
theorem subT_wrapT {width d : Nat} (r : Time) (h : d < 2 ^ width) : subT width (wrapT width (r + d)) r = d := by
  have hc := subT_cast width (wrapT width (r + d)) r
  have hw : ((wrapT width (r + d) : Nat) : Int) = ((r : Int) + d) % ((2 ^ width : Nat) : Int) := by
    unfold wrapT
    push_cast
    rfl
  rw [hw, Int.emod_sub_emod, add_sub_cancel_left, Int.emod_eq_of_lt (by omega) (by omega)] at hc
  exact_mod_cast hc

theorem State.exceeds_iff (s : State) (ms : Ms) :
    s.exceeds ms = true ↔ (ms.toNat * 1000 : Int) < ((s.now : Int) - s.ref) % ((2 ^ s.params.timeWidth : Nat) : Int) := by
  have := subT_cast s.params.timeWidth s.now s.ref
  unfold State.exceeds State.elapsed micros
  rw [decide_eq_true_iff]
  omega

theorem State.waited_iff (s : State) (ms : Ms) :
    s.waited ms = true ↔ (ms.toNat * 1000 : Int) ≤ ((s.now : Int) - s.dref) % ((2 ^ s.params.timeWidth : Nat) : Int) := by
  have := subT_cast s.params.timeWidth s.now s.dref
  unfold State.waited micros
  rw [decide_eq_true_iff]
  omega

theorem State.idxInBuffer_iff (s : State) : s.idxInBuffer = true ↔ s.idx.toNat < bufSize := by
  simp [State.idxInBuffer]

/-- LineRead has no step exactly when LineAvail is 0 (93_implementation_defined.md U6). -/
theorem State.lineRead_eq_none (s : State) : s.lineRead = none ↔ s.lineAvail = 0 := by
  unfold State.lineRead State.lineAvail
  cases s.rxq <;> simp

theorem State.lineRead_of_nil {s : State} (h : s.rxq = []) : s.lineRead = none := by
  simp [State.lineRead, h]

theorem State.lineRead_of_cons {s : State} {b : Byte} {rest : List Byte} (h : s.rxq = b :: rest) :
    s.lineRead = some (b, { s with rxq := rest }) := by
  simp [State.lineRead, h]

/-- The predicate of IS_POSITIVE in numbers: the sum is taken without wrapping (42_frame_validator.md R132). -/
theorem State.positive_iff (s : State) :
    s.positive = true ↔ (Memory.read s.rxbuf 4).toNat = (serviceId s.txbuf).toNat + 0x40 := by
  unfold State.positive wantedId
  rw [decide_eq_true_iff]
  constructor <;> intro h <;> bv_omega

theorem len9_toNat (b : Byte) : (len9 b).toNat = b.toNat + 5 := by
  unfold len9
  bv_omega

theorem len9_eq_ofNat (b : Byte) : len9 b = BitVec.ofNat 9 (b.toNat + 5) := by
  apply BitVec.eq_of_toNat_eq
  rw [len9_toNat, BitVec.toNat_ofNat]
  have := b.isLt
  omega

/-- A request is 5 to 260 bytes long (10_state.md R25). -/
theorem requestLength_bounds (m : Memory) : 5 ≤ (requestLength m).toNat ∧ (requestLength m).toNat ≤ bufSize := by
  unfold requestLength bufSize
  split
  · decide
  · rw [len9_toNat]
    have := (Memory.read m 3).isLt
    omega

/-! ## `complete` at each ISTEP (00_scope.md R19, 45_ecu_initializer.md R195) -/

theorem complete_notRunning {s : State} (r : OpResult) (h : s.istep = .notRunning) :
    complete r s = .next ((s.settleLastError r).finish (opResult r)) := by
  unfold complete
  rw [h]

theorem complete_sendStart {s : State} (r : OpResult) (h : s.istep = .sendStart) :
    complete r s = if r = .finished then .next (s.receiveInInit .recvStart)
      else .next ((s.settleLastError r).finishInit false) := by
  unfold complete
  rw [h]

theorem complete_recvStart {s : State} (r : OpResult) (h : s.istep = .recvStart) :
    complete r s = if r = .finished ∧ s.positive then .next s.sendSessionInInit
      else .next ((s.settleLastError r).finishInit false) := by
  unfold complete
  rw [h]

theorem complete_sendSession {s : State} (r : OpResult) (h : s.istep = .sendSession) :
    complete r s = if r = .finished then .next (s.receiveInInit .recvSession)
      else .next ((s.settleLastError r).finishInit false) := by
  unfold complete
  rw [h]

theorem complete_recvSession {s : State} (r : OpResult) (h : s.istep = .recvSession) :
    complete r s = if r = .finished ∧ s.positive then .next (s.spoilLastError.finishInit true)
      else .next ((s.settleLastError r).finishInit false) := by
  unfold complete
  rw [h]

/-- Every way `complete` can give a next state (00_scope.md R19, 45_ecu_initializer.md R195). -/
inductive Completion (s : State) (r : OpResult) : State → Prop where
  | host (h : s.istep = .notRunning) : Completion s r ((s.settleLastError r).finish (opResult r))
  | startSent (h : s.istep = .sendStart) (hr : r = .finished) : Completion s r (s.receiveInInit .recvStart)
  | startAnswered (h : s.istep = .recvStart) (hr : r = .finished) (hp : s.positive = true) :
      Completion s r s.sendSessionInInit
  | sessionSent (h : s.istep = .sendSession) (hr : r = .finished) : Completion s r (s.receiveInInit .recvSession)
  | sessionAnswered (h : s.istep = .recvSession) (hr : r = .finished) (hp : s.positive = true) :
      Completion s r (s.spoilLastError.finishInit true)
  | failed (h : s.istep = .sendStart ∨ s.istep = .recvStart ∨ s.istep = .sendSession ∨ s.istep = .recvSession)
      (hr : r = .finished → (s.istep = .recvStart ∨ s.istep = .recvSession) ∧ s.positive = false) :
      Completion s r ((s.settleLastError r).finishInit false)

theorem complete_next {r : OpResult} {s t : State} (h : complete r s = .next t) : Completion s r t := by
  unfold complete at h
  split at h
  case h_1 hi => cases h; exact .host hi
  case h_2 => cases h
  case h_3 => cases h
  case h_4 => cases h
  case h_5 hi =>
    split at h
    · cases h; exact .startSent hi ‹_›
    · cases h; exact .failed (by simp [hi]) (fun hr => absurd hr ‹_›)
  case h_6 hi =>
    split at h
    · cases h; exact .startAnswered hi (by tauto) (by tauto)
    · cases h; exact .failed (by simp [hi]) (fun hr => ⟨.inl hi, by simp_all⟩)
  case h_7 hi =>
    split at h
    · cases h; exact .sessionSent hi ‹_›
    · cases h; exact .failed (by simp [hi]) (fun hr => absurd hr ‹_›)
  case h_8 hi =>
    split at h
    · cases h; exact .sessionAnswered hi (by tauto) (by tauto)
    · cases h; exact .failed (by simp [hi]) (fun hr => ⟨.inr hi, by simp_all⟩)

/-- `complete` stops in a fault exactly during the wake-up steps (assumption log 15). -/
theorem complete_fault {r : OpResult} {s : State} {f : Fault} (h : complete r s = .fault f) :
    s.istep = .wakeIdle ∨ s.istep = .wakeLow ∨ s.istep = .wakeHigh := by
  unfold complete at h
  split at h <;> first | tauto | (split at h <;> cases h)

theorem complete_ne_refused {r : OpResult} {s : State} {f : Refusal} : complete r s ≠ .refused f := by
  unfold complete
  split <;> first | (split <;> simp) | simp

theorem raiseError_eq (c : ErrorCode) (s : State) : raiseError c s = complete (.error c) { s with lastError := c } := rfl

end Sys2Proof.Machine
end

