-- ==== Sys2Proof/Laws/Poll.lean ====
section
/-! SUPPORT. What one poll step can do, said once: every transition of the transition tables of
43_request_transmitter.md R151, 44_response_receiver.md R175 and 45_ecu_initializer.md R192. -/

namespace Sys2Proof.Machine

/-! ## The poll step of each phase (10_state.md R23) -/

theorem pollStep_idle {s : State} (h : s.phase = .idle) : pollStep s = .next s := by
  unfold pollStep
  rw [h]

theorem pollStep_txGate {s : State} (h : s.phase = .txGate) : pollStep s = pollTxGate s := by
  unfold pollStep
  rw [h]

theorem pollStep_txWait {s : State} (h : s.phase = .txWait) : pollStep s = pollTxWait s := by
  unfold pollStep
  rw [h]

theorem pollStep_txPut {s : State} (h : s.phase = .txPut) : pollStep s = pollTxPut s := by
  unfold pollStep
  rw [h]

theorem pollStep_txEcho {s : State} (h : s.phase = .txEcho) : pollStep s = pollTxEcho s := by
  unfold pollStep
  rw [h]

theorem pollStep_rxAssemble {s : State} (h : s.phase = .rxAssemble) : pollStep s = pollRxAssemble s := by
  unfold pollStep
  rw [h]

theorem pollStep_rxPeek {s : State} (h : s.phase = .rxPeek) : pollStep s = pollRxPeek s := by
  unfold pollStep
  rw [h]

theorem pollStep_initWake {s : State} (h : s.phase = .initWake) : pollStep s = pollInitWake s := by
  unfold pollStep
  rw [h]

/-! ## Every transition -/

/-- The state after an RX_ASSEMBLE step has read and stored a byte, before it is checked (44_response_receiver.md
R168). -/
def State.taken (s : State) (b : Byte) (rest : List Byte) : State :=
  { s with rxq := rest, ref := s.now, rxbuf := Memory.write s.rxbuf s.idx.toNat b }

/-- An RX_ASSEMBLE step with a byte available reads it, resets the window, stores it and checks it
(44_response_receiver.md R161). -/
theorem pollStep_takes {s : State} {b : Byte} {rest : List Byte} (h : s.phase = .rxAssemble) (hq : s.rxq = b :: rest)
    (hi : s.idx.toNat < bufSize) : pollStep s = checkByte b (s.taken b rest) := by
  rw [pollStep_rxAssemble h]
  unfold pollRxAssemble
  rw [State.lineRead_of_cons hq]
  change takeByte b { s with rxq := rest } = _
  unfold takeByte
  exact if_pos ((State.idxInBuffer_iff _).2 hi)

/-- How an operation ends: the phase that ends it, its outcome, and the state `complete` is given. -/
inductive Ending (s : State) : OpResult → State → Prop where
  | gateMissed (h : s.phase = .txGate) (hx : s.exceeds s.params.p3Max = true) :
      Ending s (.error .p3MaxExceeded) { s with lastError := .p3MaxExceeded }
  | sent (h : s.phase = .txEcho) (hx : s.exceeds s.params.p4Min = true) (hl : s.idx + 1 = s.txlen) :
      Ending s .finished s.nextIdx
  | echoDiffers (e : Byte) (rest : List Byte) (h : s.phase = .txEcho) (hx : ¬ s.exceeds s.params.p4Min = true)
      (hq : s.rxq = e :: rest) (hi : s.idx.toNat < bufSize) (he : e ≠ s.txByte) :
      Ending s (.error .echoMismatch) { s with rxq := rest, lastError := .echoMismatch }
  | headerRefused (b : Byte) (rest : List Byte) (c : ErrorCode) (h : s.phase = .rxAssemble) (hq : s.rxq = b :: rest)
      (hc : (s.idx = 0 ∧ b ≠ s.params.rxFormat ∧ c = .badFormat) ∨
        (s.idx = 1 ∧ b ≠ s.params.testerAddr ∧ c = .badTargetAddress) ∨
        (s.idx = 2 ∧ b ≠ s.params.ecuAddr ∧ c = .badSourceAddress)) :
      Ending s (.error c) { s.taken b rest with lastError := c }
  | tooLong (b : Byte) (rest : List Byte) (h : s.phase = .rxAssemble) (hq : s.rxq = b :: rest) (hi : s.idx = 3)
      (hl : s.rxcap < len9 b) :
      Ending s (.error .bufferOverflow) { s.taken b rest with total := len9 b, lastError := .bufferOverflow }
  | sumDiffers (b : Byte) (rest : List Byte) (h : s.phase = .rxAssemble) (hq : s.rxq = b :: rest)
      (hi : 4 ≤ s.idx.toNat) (hb : s.idx.toNat < bufSize) (hf : s.idx.toNat + 1 = s.total.toNat)
      (hs : b ≠ sum8 (s.taken b rest).rxbuf (s.total.toNat - 1)) :
      Ending s (.error .checksumMismatch) { s.taken b rest with lastError := .checksumMismatch }
  | silent (h : s.phase = .rxAssemble) (hq : s.rxq = []) (hx : s.exceeds s.params.p2Max = true) :
      Ending s (.error .p2MaxTimeout) { s with lastError := .p2MaxTimeout }
  | moreWaiting (h : s.phase = .rxPeek) (hq : s.rxq ≠ []) : Ending s .pending s
  | received (h : s.phase = .rxPeek) (hq : s.rxq = []) (hx : s.exceeds s.params.p2Max = true) : Ending s .finished s

/-- The three header checks passed (44_response_receiver.md R162 to R164). -/
def State.headerPasses (s : State) (b : Byte) : Prop :=
  (s.idx = 0 ∧ b = s.params.rxFormat) ∨ (s.idx = 1 ∧ b = s.params.testerAddr) ∨ (s.idx = 2 ∧ b = s.params.ecuAddr)

/-- Every transition a poll step can make. -/
inductive PollTransition (s : State) : State → Prop where
  | stay (hw : s.waitOver = false) : PollTransition s s
  | gatePassed (h : s.phase = .txGate) : PollTransition s { s with phase := .txWait }
  | minPassed (h : s.phase = .txWait) (hx : s.exceeds s.params.p3Min = true) :
      PollTransition s { s with phase := .txPut }
  | put (h : s.phase = .txPut) (hi : s.idx.toNat < bufSize) :
      PollTransition s { s with txlog := s.txlog ++ [s.txByte], ref := s.now, phase := .txEcho }
  | nextByte (h : s.phase = .txEcho) (hx : s.exceeds s.params.p4Min = true) (hl : s.idx + 1 ≠ s.txlen) :
      PollTransition s { s with idx := s.idx + 1, phase := .txPut }
  | echoMatched (rest : List Byte) (h : s.phase = .txEcho) (hx : ¬ s.exceeds s.params.p4Min = true)
      (hq : s.rxq = s.txByte :: rest) : PollTransition s { s with rxq := rest }
  | headerTaken (b : Byte) (rest : List Byte) (h : s.phase = .rxAssemble) (hq : s.rxq = b :: rest)
      (hc : s.headerPasses b) : PollTransition s { s.taken b rest with idx := s.idx + 1 }
  | lengthTaken (b : Byte) (rest : List Byte) (h : s.phase = .rxAssemble) (hq : s.rxq = b :: rest) (hi : s.idx = 3)
      (hl : ¬ s.rxcap < len9 b) : PollTransition s { s.taken b rest with total := len9 b, idx := s.idx + 1 }
  | dataTaken (b : Byte) (rest : List Byte) (h : s.phase = .rxAssemble) (hq : s.rxq = b :: rest)
      (hi : 4 ≤ s.idx.toNat) (hb : s.idx.toNat < bufSize) (hf : s.idx.toNat + 1 ≠ s.total.toNat) :
      PollTransition s { s.taken b rest with idx := s.idx + 1 }
  | frameComplete (b : Byte) (rest : List Byte) (h : s.phase = .rxAssemble) (hq : s.rxq = b :: rest)
      (hi : 4 ≤ s.idx.toNat) (hb : s.idx.toNat < bufSize) (hf : s.idx.toNat + 1 = s.total.toNat)
      (hs : b = sum8 (s.taken b rest).rxbuf (s.total.toNat - 1)) :
      PollTransition s { s.taken b rest with idx := s.idx + 1, phase := .rxPeek }
  | pinLow (h : s.phase = .initWake) (hi : s.istep = .wakeIdle) (hw : s.waited s.params.wIdleMs = true) :
      PollTransition s { s with wakePin := false, dref := s.now, istep := .wakeLow }
  | pinHigh (h : s.phase = .initWake) (hi : s.istep = .wakeLow) (hw : s.waited s.params.wLowMs = true) :
      PollTransition s { s with wakePin := true, dref := s.now, istep := .wakeHigh }
  | lineResumed (h : s.phase = .initWake) (hi : s.istep = .wakeHigh) (hw : s.waited s.params.wHighMs = true) :
      PollTransition s (resumeLine s)
  | ended (r : OpResult) (s1 t : State) (he : Ending s r s1) (hc : Completion s1 r t) : PollTransition s t

theorem count_le_3_cases (i : Count) : i = 0 ∨ i = 1 ∨ i = 2 ∨ i = 3 ∨ 4 ≤ i.toNat := by
  have h : i.toNat = 0 ∨ i.toNat = 1 ∨ i.toNat = 2 ∨ i.toNat = 3 ∨ 4 ≤ i.toNat := by omega
  rcases h with h | h | h | h | h
  · exact .inl (BitVec.eq_of_toNat_eq h)
  · exact .inr (.inl (BitVec.eq_of_toNat_eq h))
  · exact .inr (.inr (.inl (BitVec.eq_of_toNat_eq h)))
  · exact .inr (.inr (.inr (.inl (BitVec.eq_of_toNat_eq h))))
  · exact .inr (.inr (.inr (.inr h)))

theorem ne_of_four_le {i : Count} (h : 4 ≤ i.toNat) : i ≠ 0 ∧ i ≠ 1 ∧ i ≠ 2 ∧ i ≠ 3 := by
  refine ⟨?_, ?_, ?_, ?_⟩ <;> rintro rfl <;> exact absurd h (by decide)

/-- From index 4 on only the last byte is checked (44_response_receiver.md R166, R167). -/
theorem checkByte_data {b : Byte} {s : State} (h : 4 ≤ s.idx.toNat) :
    checkByte b s = if s.idx.toNat + 1 = s.total.toNat then checkFinal b s else .next s.nextIdx := by
  obtain ⟨n0, n1, n2, n3⟩ := ne_of_four_le h
  unfold checkByte
  rw [if_neg n0, if_neg n1, if_neg n2, if_neg n3]

/-- The check of a taken byte, on the state after the store. -/
theorem takeByte_next {b : Byte} {rest : List Byte} {s t : State} (hp : s.phase = .rxAssemble)
    (hq : s.rxq = b :: rest) (h : takeByte b { s with rxq := rest } = .next t) : PollTransition s t := by
  unfold takeByte at h
  split at h
  case isFalse => cases h
  case isTrue hib =>
    have hb : s.idx.toNat < bufSize := by
      rw [State.idxInBuffer_iff] at hib
      exact hib
    change checkByte b (s.taken b rest) = .next t at h
    unfold checkByte at h
    have hidx : (s.taken b rest).idx = s.idx := rfl
    have hpar : (s.taken b rest).params = s.params := rfl
    have htot : (s.taken b rest).total = s.total := rfl
    rw [hidx, hpar, htot] at h
    rcases count_le_3_cases s.idx with h0 | h1 | h2 | h3 | h4
    · rw [if_pos h0] at h
      split at h
      · exact .ended _ _ _ (.headerRefused b rest _ hp hq (.inl ⟨h0, ‹_›, rfl⟩)) (complete_next h)
      · cases h
        exact .headerTaken b rest hp hq (.inl ⟨h0, not_not.1 ‹_›⟩)
    · rw [if_neg (by rw [h1]; decide), if_pos h1] at h
      split at h
      · exact .ended _ _ _ (.headerRefused b rest _ hp hq (.inr (.inl ⟨h1, ‹_›, rfl⟩))) (complete_next h)
      · cases h
        exact .headerTaken b rest hp hq (.inr (.inl ⟨h1, not_not.1 ‹_›⟩))
    · rw [if_neg (by rw [h2]; decide), if_neg (by rw [h2]; decide), if_pos h2] at h
      split at h
      · exact .ended _ _ _ (.headerRefused b rest _ hp hq (.inr (.inr ⟨h2, ‹_›, rfl⟩))) (complete_next h)
      · cases h
        exact .headerTaken b rest hp hq (.inr (.inr ⟨h2, not_not.1 ‹_›⟩))
    · rw [if_neg (by rw [h3]; decide), if_neg (by rw [h3]; decide), if_neg (by rw [h3]; decide), if_pos h3] at h
      unfold checkLength at h
      split at h
      · exact .ended _ _ _ (.tooLong b rest hp hq h3 ‹_›) (complete_next h)
      · cases h
        exact .lengthTaken b rest hp hq h3 ‹_›
    · obtain ⟨n0, n1, n2, n3⟩ := ne_of_four_le h4
      rw [if_neg n0, if_neg n1, if_neg n2, if_neg n3] at h
      split at h
      case isTrue hf =>
        unfold checkFinal at h
        split at h
        · exact .ended _ _ _ (.sumDiffers b rest hp hq h4 hb hf ‹_›) (complete_next h)
        · cases h
          exact .frameComplete b rest hp hq h4 hb hf (not_not.1 ‹_›)
      case isFalse hf =>
        cases h
        exact .dataTaken b rest hp hq h4 hb hf

theorem pollTxEcho_next {s t : State} (hp : s.phase = .txEcho) (h : pollTxEcho s = .next t) : PollTransition s t := by
  unfold pollTxEcho at h
  split at h
  case isTrue hx =>
    unfold echoWindowOver at h
    split at h
    · exact .ended _ _ _ (.sent hp hx ‹_›) (complete_next h)
    · cases h
      exact .nextByte hp hx ‹_›
  case isFalse hx =>
    rcases hq : s.rxq with _ | ⟨e, rest⟩
    · rw [State.lineRead_of_nil hq] at h
      cases h
      exact .stay (by simp [State.waitOver, hp, hx])
    · rw [State.lineRead_of_cons hq] at h
      change checkEcho e { s with rxq := rest } = .next t at h
      unfold checkEcho at h
      split at h
      case isTrue hib =>
        split at h
        · exact .ended _ _ _ (.echoDiffers e rest hp hx hq ((State.idxInBuffer_iff _).1 hib) ‹_›) (complete_next h)
        · rename_i he
          cases h
          refine .echoMatched rest hp hx ?_
          rw [hq, not_not.1 he]
          rfl
      case isFalse => cases h

theorem pollRxAssemble_next {s t : State} (hp : s.phase = .rxAssemble) (h : pollRxAssemble s = .next t) :
    PollTransition s t := by
  unfold pollRxAssemble at h
  rcases hq : s.rxq with _ | ⟨b, rest⟩
  · rw [State.lineRead_of_nil hq] at h
    change (if s.exceeds s.params.p2Max = true then _ else _) = _ at h
    split at h
    · exact .ended _ _ _ (.silent hp hq ‹_›) (complete_next h)
    · cases h
      exact .stay (by simp [State.waitOver, State.lineAvail, *])
  · rw [State.lineRead_of_cons hq] at h
    exact takeByte_next hp hq h

theorem pollRxPeek_next {s t : State} (hp : s.phase = .rxPeek) (h : pollRxPeek s = .next t) : PollTransition s t := by
  unfold pollRxPeek at h
  split at h
  case isTrue ha =>
    refine .ended _ _ _ (.moreWaiting hp ?_) (complete_next h)
    rintro hq
    simp [State.lineAvail, hq] at ha
  case isFalse ha =>
    have hq : s.rxq = [] := by
      rw [← List.length_eq_zero_iff]
      simp only [State.lineAvail] at ha
      omega
    split at h
    · exact .ended _ _ _ (.received hp hq ‹_›) (complete_next h)
    · cases h
      exact .stay (by simp [State.waitOver, State.lineAvail, *])

theorem pollInitWake_next {s t : State} (hp : s.phase = .initWake) (h : pollInitWake s = .next t) :
    PollTransition s t := by
  unfold pollInitWake at h
  split at h
  case h_1 hi =>
    split at h
    · cases h; exact .pinLow hp hi ‹_›
    · cases h; exact .stay (by simp [State.waitOver, *])
  case h_2 hi =>
    split at h
    · cases h; exact .pinHigh hp hi ‹_›
    · cases h; exact .stay (by simp [State.waitOver, *])
  case h_3 hi =>
    split at h
    · cases h; exact .lineResumed hp hi ‹_›
    · cases h; exact .stay (by simp [State.waitOver, *])
  all_goals
    cases h
    exact .stay (by simp [State.waitOver, *])

/-- A poll step that gives a next state makes one of the transitions of the tables. -/
theorem pollStep_next {s t : State} (h : pollStep s = .next t) : PollTransition s t := by
  unfold pollStep at h
  split at h
  case h_1 hp =>
    cases h
    exact .stay (by simp [State.waitOver, hp])
  case h_2 hp =>
    unfold pollTxGate at h
    split at h
    · exact .ended _ _ _ (.gateMissed hp ‹_›) (complete_next h)
    · cases h; exact .gatePassed hp
  case h_3 hp =>
    unfold pollTxWait at h
    split at h
    · cases h; exact .minPassed hp ‹_›
    · cases h; exact .stay (by simp [State.waitOver, *])
  case h_4 hp =>
    unfold pollTxPut at h
    split at h
    · cases h; exact .put hp ((State.idxInBuffer_iff _).1 ‹_›)
    · cases h
  case h_5 hp => exact pollTxEcho_next hp h
  case h_6 hp => exact pollRxAssemble_next hp h
  case h_7 hp => exact pollRxPeek_next hp h
  case h_8 hp => exact pollInitWake_next hp h

theorem Ending.istep_eq {s s1 : State} {r : OpResult} (h : Ending s r s1) : s1.istep = s.istep := by cases h <;> rfl

theorem Ending.phase_eq {s s1 : State} {r : OpResult} (h : Ending s r s1) : s1.phase = s.phase := by cases h <;> rfl

/-- A poll step leaves the engine idle only by staying there or by ending an operation. -/
theorem PollTransition.idle {s t : State} (h : PollTransition s t) (ht : t.phase = .idle) :
    t = s ∨ ∃ r s1, Ending s r s1 ∧ Completion s1 r t := by
  cases h
  case stay => exact .inl rfl
  case ended r s1 he hc => exact .inr ⟨r, s1, he, hc⟩
  case echoMatched h _ _ => cases h.symm.trans ht
  case headerTaken h _ _ => cases h.symm.trans ht
  case lengthTaken h _ _ _ => cases h.symm.trans ht
  case dataTaken h _ _ _ _ => cases h.symm.trans ht
  case pinLow h _ _ => cases h.symm.trans ht
  case pinHigh h _ _ => cases h.symm.trans ht
  all_goals cases ht

end Sys2Proof.Machine
end

