-- ==== Sys2Proof/Laws/Initializer.lean ====
section
/-! SUPPORT. The initializer: the wake-up step at each ISTEP, and the two requests it loads, read back. -/

namespace Sys2Proof.Machine

theorem pollStep_wakeIdle {s : State} (h : s.phase = .initWake) (hi : s.istep = .wakeIdle) : pollStep s =
    if s.waited s.params.wIdleMs then .next { s with wakePin := false, dref := s.now, istep := .wakeLow }
    else .next s := by
  rw [pollStep_initWake h]
  unfold pollInitWake
  rw [hi]

theorem pollStep_wakeLow {s : State} (h : s.phase = .initWake) (hi : s.istep = .wakeLow) : pollStep s =
    if s.waited s.params.wLowMs then .next { s with wakePin := true, dref := s.now, istep := .wakeHigh }
    else .next s := by
  rw [pollStep_initWake h]
  unfold pollInitWake
  rw [hi]

theorem pollStep_wakeHigh {s : State} (h : s.phase = .initWake) (hi : s.istep = .wakeHigh) : pollStep s =
    if s.waited s.params.wHighMs then .next (resumeLine s) else .next s := by
  rw [pollStep_initWake h]
  unfold pollInitWake
  rw [hi]

/-- The start-communication request stands at the start of TXBUF (45_ecu_initializer.md R194). -/
theorem State.bytes_loadStartRequest {s : State} (hm : Memory.wf s.txbuf = true) :
    Memory.bytes s.loadStartRequest.txbuf 5 = startRequest s.params :=
  (Memory.bytes_writeFrame hm (by simp [bufSize])).trans (by simp [startRequest])

theorem State.read_loadStartRequest {s : State} (hm : Memory.wf s.txbuf = true) {a : Nat} (h : 5 ≤ a) :
    Memory.read s.loadStartRequest.txbuf a = Memory.read s.txbuf a :=
  Memory.read_writeFrame hm (by simp [bufSize]) h

theorem State.wf_loadStartRequest {s : State} (hm : Memory.wf s.txbuf = true) :
    Memory.wf s.loadStartRequest.txbuf = true :=
  Memory.wf_writeFrame hm (by simp [bufSize])

/-- The start-diagnostic-session request stands at the start of TXBUF (45_ecu_initializer.md R196). -/
theorem State.bytes_loadSessionRequest {s : State} (hm : Memory.wf s.txbuf = true) :
    Memory.bytes s.loadSessionRequest.txbuf 7 = sessionRequest s.params :=
  (Memory.bytes_writeFrame hm (by simp [bufSize])).trans (by simp [sessionRequest])

theorem State.read_loadSessionRequest {s : State} (hm : Memory.wf s.txbuf = true) {a : Nat} (h : 7 ≤ a) :
    Memory.read s.loadSessionRequest.txbuf a = Memory.read s.txbuf a :=
  Memory.read_writeFrame hm (by simp [bufSize]) h

theorem State.wf_loadSessionRequest {s : State} (hm : Memory.wf s.txbuf = true) :
    Memory.wf s.loadSessionRequest.txbuf = true :=
  Memory.wf_writeFrame hm (by simp [bufSize])

/-- The start-communication request is 5 bytes long by the transmitter's own rule (43_request_transmitter.md R140). -/
theorem State.requestLength_loadStartRequest {s : State} (hm : Memory.wf s.txbuf = true) :
    requestLength s.loadStartRequest.txbuf = 5 := by
  have h0 := Memory.read_eq_of_bytes (State.bytes_loadStartRequest hm) (i := 0) (by decide)
  unfold requestLength
  exact if_pos (Option.some.inj h0).symm

/-- The start-diagnostic-session request is 7 bytes long by the transmitter's own rule. -/
theorem State.requestLength_loadSessionRequest {s : State} (hm : Memory.wf s.txbuf = true) :
    requestLength s.loadSessionRequest.txbuf = 7 := by
  have h0 := Memory.read_eq_of_bytes (State.bytes_loadSessionRequest hm) (i := 0) (by decide)
  have h3 := Memory.read_eq_of_bytes (State.bytes_loadSessionRequest hm) (i := 3) (by decide)
  unfold requestLength
  rw [← Option.some.inj h0, ← Option.some.inj h3]
  decide

end Sys2Proof.Machine
end

