-- ==== Sys2Proof/Laws/PerInstr.lean ====
section
/-! SUPPORT. A family of statements made per command: the command's word agrees with its row of
spec/opcode_table.json, the row's fixed bits at the row's values. -/

namespace Sys2Proof.Laws.TableWord

/-- "mask" of the command's row. -/
def mask : Instr → Word
  | .twReset => 0xFFFFFFFF
  | .twElapsed _ => 0xFFFF0000
  | .checksum _ _ => 0xFFFE0000
  | .isPositive => 0xFFFFFFFF
  | .sendRequest => 0xFFFFFFFF
  | .receiveResponse _ => 0xFFFF0000
  | .getLastError => 0xFFFFFFFF
  | .ecuInitialize => 0xFFFFFFFF

/-- "match" of the command's row. -/
def pattern : Instr → Word
  | .twReset => 0x01000000
  | .twElapsed _ => 0x02000000
  | .checksum _ _ => 0x03000000
  | .isPositive => 0x04000000
  | .sendRequest => 0x05000000
  | .receiveResponse _ => 0x06000000
  | .getLastError => 0x07000000
  | .ecuInitialize => 0x08000000

/-- The word of the command has the row's fixed bits. -/
def Statement (i : Instr) : Prop := encode i &&& mask i = pattern i

theorem cf1_fixed (op : BitVec 8) (imm : BitVec 16) : encodeCF1 op imm &&& 0xFFFF0000 = op ++ 0#24 := by
  change (op ++ (0#8 ++ imm : BitVec 24)) &&& (0xFF#8 ++ (0xFF#8 ++ 0#16 : BitVec 24)) = op ++ 0#24
  rw [BitVec.and_append, BitVec.and_append, show (0xFF#8) = BitVec.allOnes 8 from rfl, BitVec.and_allOnes]
  simp

theorem cf2_fixed (op : BitVec 8) (buf : BufSel) (imm : BitVec 16) :
    encodeCF2 op buf imm &&& 0xFFFE0000 = op ++ 0#24 := by
  change (op ++ (0#7 ++ (bufSelBit buf ++ imm : BitVec 17) : BitVec 24)) &&& (0xFF#8 ++ (0x7F#7 ++ 0#17 : BitVec 24)) =
    op ++ 0#24
  rw [BitVec.and_append, BitVec.and_append, show (0xFF#8) = BitVec.allOnes 8 from rfl, BitVec.and_allOnes]
  simp

theorem twReset : Statement .twReset := by
  change _ = _
  decide

theorem twElapsed (ms : Ms) : Statement (.twElapsed ms) := by
  change encodeCF1 0x02 ms &&& 0xFFFF0000 = 0x02000000
  rw [cf1_fixed]
  decide

theorem checksum (buf : BufSel) (len : BitVec 16) : Statement (.checksum buf len) := by
  change encodeCF2 0x03 buf len &&& 0xFFFE0000 = 0x03000000
  rw [cf2_fixed]
  decide

theorem isPositive : Statement .isPositive := by
  change _ = _
  decide

theorem sendRequest : Statement .sendRequest := by
  change _ = _
  decide

theorem receiveResponse (cap : BitVec 16) : Statement (.receiveResponse cap) := by
  change encodeCF1 0x06 cap &&& 0xFFFF0000 = 0x06000000
  rw [cf1_fixed]
  decide

theorem getLastError : Statement .getLastError := by
  change _ = _
  decide

theorem ecuInitialize : Statement .ecuInitialize := by
  change _ = _
  decide

end Sys2Proof.Laws.TableWord
end

