-- ==== Sys2Proof/Laws/Safety.lean ====
section
/-! SUPPORT. The invariant `Inv` taken apart and put together: what it says in each kind of phase, and what is enough for
it in a state of that kind. -/

namespace Sys2Proof.Machine

theorem Params.wf_bounds {p : Params} (h : p.wf = true) :
    p.p3Min.toNat < p.p3Max.toNat ∧ 6 ≤ p.initRxCap.toNat ∧ p.initRxCap.toNat ≤ bufSize := by
  unfold Params.wf at h
  rwa [decide_eq_true_iff] at h

/-- An idle engine runs no INITIALIZE and has its line resumed and its pin high. -/
theorem Inv.idle_facts {s : State} (hI : Inv s) (h : s.phase = .idle) :
    s.istep = .notRunning ∧ s.lineEn = true ∧ s.wakePin = true := by
  have q := hI.sequencing
  have l := hI.line
  have p := hI.pin
  rw [h] at q l
  have hi : s.istep = .notRunning := by cases hi : s.istep <;> rw [hi] at q <;> first | rfl | cases q
  rw [hi] at p
  exact ⟨hi, l, p⟩

theorem Inv.sending_facts {s : State} (hI : Inv s) (h : s.phase.sending = true) :
    (s.istep = .notRunning ∨ s.istep = .sendStart ∨ s.istep = .sendSession) ∧ s.lineEn = true ∧ s.wakePin = true := by
  have q := hI.sequencing
  have l := hI.line
  have p := hI.pin
  cases hp : s.phase <;> cases hi : s.istep <;> rw [hp] at q l h <;> rw [hi] at q p <;>
    first | (cases q; done) | (cases h; done) | exact ⟨by simp, l, p⟩

theorem Inv.receiving_facts {s : State} (hI : Inv s) (h : s.phase.receiving = true) :
    (s.istep = .notRunning ∨ s.istep = .recvStart ∨ s.istep = .recvSession) ∧ s.lineEn = true ∧ s.wakePin = true := by
  have q := hI.sequencing
  have l := hI.line
  have p := hI.pin
  cases hp : s.phase <;> cases hi : s.istep <;> rw [hp] at q l h <;> rw [hi] at q p <;>
    first | (cases q; done) | (cases h; done) | exact ⟨by simp, l, p⟩

/-- While a request is being sent, IDX lies inside it and it is 5 to 260 bytes long. -/
theorem Inv.sending_bounds {s : State} (hI : Inv s) (h : s.phase.sending = true) :
    5 ≤ s.txlen.toNat ∧ s.txlen.toNat ≤ bufSize ∧ s.idx.toNat < s.txlen.toNat := by
  obtain ⟨h1, h2⟩ := hI.sending h
  have hb := requestLength_bounds s.txbuf
  rw [← h1] at hb
  exact ⟨hb.1, hb.2, by rwa [BitVec.lt_def] at h2⟩

/-- While a response is being assembled, IDX lies inside the granted capacity (44_response_receiver.md R168). -/
theorem Inv.assembling_bounds {s : State} (hI : Inv s) (h : s.phase = .rxAssemble) : s.idx.toNat < s.rxcap.toNat := by
  obtain ⟨c1, -, c3⟩ := hI.receiving (by rw [h]; rfl)
  rcases hI.assembling h with ha | ha
  · omega
  · by_cases h4 : 4 ≤ s.idx.toNat
    · have c4 := (c3.length h4).2
      rw [BitVec.lt_def] at ha
      rw [BitVec.le_def] at c4
      omega
    · omega

theorem HeaderAccepted.of_idx_zero {s : State} (h : s.idx = 0) : HeaderAccepted s where
  format h' := by simp [h] at h'
  target h' := by simp [h] at h'
  source h' := by simp [h] at h'
  length h' := by simp [h] at h'

/-- Enough for the invariant in an idle state. -/
theorem Inv.of_idle {s : State} (hp : s.params.wf = true) (hk : ClockFits s) (ht : Memory.wf s.txbuf = true)
    (hr : Memory.wf s.rxbuf = true) (h : s.phase = .idle) (hi : s.istep = .notRunning) (hl : s.lineEn = true)
    (hw : s.wakePin = true) : Inv s where
  params_wf := hp
  clock := hk
  txbuf_wf := ht
  rxbuf_wf := hr
  sequencing := by rw [h, hi]; rfl
  line := by rw [h, hl]; rfl
  pin := by rw [hi, hw]; rfl
  starting := by simp [h]
  sending := by simp [h, Phase.sending]
  receiving := by simp [h, Phase.receiving]
  assembling := by simp [h]
  peeking := by simp [h]

/-- Enough for the invariant in a wake-up state. -/
theorem Inv.of_wake {s : State} (hp : s.params.wf = true) (hk : ClockFits s) (ht : Memory.wf s.txbuf = true)
    (hr : Memory.wf s.rxbuf = true) (h : s.phase = .initWake)
    (hi : s.istep = .wakeIdle ∨ s.istep = .wakeLow ∨ s.istep = .wakeHigh) (hl : s.lineEn = false)
    (hw : s.wakePin = (s.istep != .wakeLow)) : Inv s where
  params_wf := hp
  clock := hk
  txbuf_wf := ht
  rxbuf_wf := hr
  sequencing := by rw [h]; rcases hi with hi | hi | hi <;> rw [hi] <;> rfl
  line := by rw [hl, h]; rfl
  pin := hw
  starting := by simp [h]
  sending := by simp [h, Phase.sending]
  receiving := by simp [h, Phase.receiving]
  assembling := by simp [h]
  peeking := by simp [h]

/-- Enough for the invariant in a state of the transmitter. -/
theorem Inv.of_sending {s : State} (hp : s.params.wf = true) (hk : ClockFits s) (ht : Memory.wf s.txbuf = true)
    (hr : Memory.wf s.rxbuf = true) (h : s.phase.sending = true)
    (hi : s.istep = .notRunning ∨ s.istep = .sendStart ∨ s.istep = .sendSession) (hl : s.lineEn = true)
    (hw : s.wakePin = true) (h0 : s.phase = .txGate ∨ s.phase = .txWait → s.idx = 0)
    (hs : s.txlen = requestLength s.txbuf ∧ s.idx < s.txlen) : Inv s where
  params_wf := hp
  clock := hk
  txbuf_wf := ht
  rxbuf_wf := hr
  sequencing := by
    cases hh : s.phase <;> rw [hh] at h <;> first | (cases h; done) | (rcases hi with hi | hi | hi <;> rw [hi] <;> rfl)
  line := by cases hh : s.phase <;> rw [hh] at h <;> first | (cases h; done) | (rw [hl]; rfl)
  pin := by rw [hw]; rcases hi with hi | hi | hi <;> rw [hi] <;> rfl
  starting := h0
  sending _ := hs
  receiving h' := by cases hh : s.phase <;> rw [hh] at h h' <;> first | (cases h; done) | cases h'
  assembling h' := by rw [h'] at h; cases h
  peeking h' := by rw [h'] at h; cases h

/-- Enough for the invariant in a state of the receiver. -/
theorem Inv.of_receiving {s : State} (hp : s.params.wf = true) (hk : ClockFits s) (ht : Memory.wf s.txbuf = true)
    (hr : Memory.wf s.rxbuf = true) (h : s.phase.receiving = true)
    (hi : s.istep = .notRunning ∨ s.istep = .recvStart ∨ s.istep = .recvSession) (hl : s.lineEn = true)
    (hw : s.wakePin = true) (hc : 4 ≤ s.rxcap.toNat ∧ s.rxcap.toNat ≤ bufSize ∧ HeaderAccepted s)
    (ha : s.phase = .rxAssemble → s.idx.toNat ≤ 3 ∨ s.idx < s.total)
    (hf : s.phase = .rxPeek → s.idx = s.total ∧ 4 ≤ s.idx.toNat ∧
      Memory.read s.rxbuf (s.total.toNat - 1) = sum8 s.rxbuf (s.total.toNat - 1)) : Inv s where
  params_wf := hp
  clock := hk
  txbuf_wf := ht
  rxbuf_wf := hr
  sequencing := by
    cases hh : s.phase <;> rw [hh] at h <;> first | (cases h; done) | (rcases hi with hi | hi | hi <;> rw [hi] <;> rfl)
  line := by cases hh : s.phase <;> rw [hh] at h <;> first | (cases h; done) | (rw [hl]; rfl)
  pin := by rw [hw]; rcases hi with hi | hi | hi <;> rw [hi] <;> rfl
  starting h' := by rcases h' with h' | h' <;> rw [h'] at h <;> cases h
  sending h' := by cases hh : s.phase <;> rw [hh] at h h' <;> first | (cases h; done) | cases h'
  receiving _ := hc
  assembling := ha
  peeking := hf

/-- The invariant speaks of eleven fields and the times only. -/
theorem Inv.frame {s t : State} (hI : Inv s) (h1 : t.params = s.params) (h2 : t.txbuf = s.txbuf)
    (h3 : t.rxbuf = s.rxbuf) (h4 : t.phase = s.phase) (h5 : t.istep = s.istep) (h6 : t.lineEn = s.lineEn)
    (h7 : t.wakePin = s.wakePin) (h8 : t.idx = s.idx) (h9 : t.txlen = s.txlen) (h10 : t.rxcap = s.rxcap)
    (h11 : t.total = s.total) (hk : ClockFits t) : Inv t := by
  obtain ⟨a1, -, a2, a3, a4, a5, a6, a7, a8, a9, a10, a11⟩ := hI
  refine ⟨?_, hk, ?_, ?_, ?_, ?_, ?_, ?_, ?_, ?_, ?_, ?_⟩ <;>
    simp only [h1, h2, h3, h4, h5, h6, h7, h8, h9, h10, h11] <;> try assumption
  intro h
  obtain ⟨b1, b2, d1, d2, d3, d4⟩ := a9 h
  refine ⟨b1, b2, ?_⟩
  constructor <;> simp only [h1, h3, h8, h10, h11] <;> assumption

end Sys2Proof.Machine
end

