-- ==== Sys2Proof/Laws/Step.lean ====
section
/-! SUPPORT. What a command, a host access and one step of the machine can do, said once. -/

namespace Sys2Proof.Machine

/-- What each command does in its issuing step. -/
inductive CommandEffect (s : State) : Instr → State → Prop where
  | twReset : CommandEffect s .twReset { s with ref := s.now, result := .none }
  | twElapsed (ms : Ms) : CommandEffect s (.twElapsed ms) { s with result := .bool (s.exceeds ms) }
  | checksum (buf : BufSel) (len : BitVec 16) (h : len.toNat ≤ bufSize) :
      CommandEffect s (.checksum buf len) { s with result := .byte (sum8 (bufferOf buf s) len.toNat) }
  | isPositive : CommandEffect s .isPositive { s with result := .bool s.positive }
  | sendRequest : CommandEffect s .sendRequest
      { s with txlen := requestLength s.txbuf, idx := 0, phase := .txGate }
  | receiveResponse (cap : BitVec 16) (h : 4 ≤ cap.toNat ∧ cap.toNat ≤ bufSize) :
      CommandEffect s (.receiveResponse cap) { s with rxcap := capacity cap, idx := 0, phase := .rxAssemble }
  | getLastError : CommandEffect s .getLastError { s with result := .errcode s.lastError }
  | ecuInitialize : CommandEffect s .ecuInitialize
      { s with ref := s.now, lineEn := false, wakePin := true, dref := s.now, istep := .wakeIdle, phase := .initWake }

theorem exec_next {i : Instr} {s t : State} (h : exec i s = .next t) : CommandEffect s i t := by
  cases i with
  | twReset => cases h; exact .twReset
  | twElapsed ms => cases h; exact .twElapsed ms
  | checksum buf len =>
    change execChecksum buf len s = _ at h
    unfold execChecksum at h
    split at h
    · cases h; exact .checksum buf len ‹_›
    · cases h
  | isPositive => cases h; exact .isPositive
  | sendRequest => cases h; exact .sendRequest
  | receiveResponse cap =>
    change execReceiveResponse cap s = _ at h
    unfold execReceiveResponse at h
    split at h
    · cases h; exact .receiveResponse cap ‹_›
    · cases h
  | getLastError => cases h; exact .getLastError
  | ecuInitialize => cases h; exact .ecuInitialize

/-- A command never stops in a fault. -/
theorem exec_ne_fault (i : Instr) (s : State) (f : Fault) : exec i s ≠ .fault f := by
  cases i <;> simp only [exec, execTwReset, execTwElapsed, execChecksum, execIsPositive, execSendRequest,
    execReceiveResponse, execGetLastError, execEcuInitialize] <;> first | (split <;> simp) | simp

/-! ## The register map (20_memory.md R51) -/

theorem hostTarget_tx {i : Nat} (h : i < bufSize) : hostTarget (0x100 + i) = .tx i := by
  unfold bufSize at h
  unfold hostTarget bufSize
  rw [if_neg (by omega), if_neg (by omega), if_neg (by omega), if_pos (by omega)]
  simp

theorem hostTarget_rx {i : Nat} (h : i < bufSize) : hostTarget (0x300 + i) = .rx i := by
  unfold bufSize at h
  unfold hostTarget bufSize
  rw [if_neg (by omega), if_neg (by omega), if_neg (by omega), if_neg (by omega), if_pos (by omega)]
  simp

theorem hostTarget_eq_tx {a i : Nat} (h : hostTarget a = .tx i) : a = 0x100 + i ∧ i < bufSize := by
  unfold hostTarget at h
  split at h; · cases h
  split at h; · cases h
  split at h; · cases h
  split at h
  · rw [HostTarget.tx.injEq] at h
    unfold bufSize at *
    omega
  · split at h <;> cases h

theorem hostTarget_eq_rx {a i : Nat} (h : hostTarget a = .rx i) : a = 0x300 + i ∧ i < bufSize := by
  unfold hostTarget at h
  split at h; · cases h
  split at h; · cases h
  split at h; · cases h
  split at h; · cases h
  split at h
  · rw [HostTarget.rx.injEq] at h
    unfold bufSize at *
    omega
  · cases h

theorem hostTarget_eq_cmd {a : Nat} (h : hostTarget a = .cmd) : a = 0x000 := by
  unfold hostTarget at h
  split at h
  · assumption
  · split at h; · cases h
    split at h; · cases h
    split at h; · cases h
    split at h <;> cases h

theorem busy_eq_false {s : State} (h : ¬ s.busy = true) : s.phase = .idle := by
  cases hp : s.phase <;> simp [State.busy, hp] at h ⊢

theorem busy_of_ne_idle {s : State} (h : s.phase ≠ .idle) : s.busy = true := by
  simp [State.busy, h]

theorem not_busy_of_idle {s : State} (h : s.phase = .idle) : s.busy = false := by
  simp [State.busy, h]

/-! ## One step, and the host port's accesses, as equations -/

theorem step_input {s : State} {m : Input} {rest : List Input} (h : s.inputs = m :: rest) :
    step s = applyInput m { s with inputs := rest } := by
  unfold step nextTransition
  rw [h]

theorem step_noInput {s : State} (h : s.inputs = []) : step s = pollStep s.gap := by
  unfold step nextTransition
  rw [h]

theorem issueCommand_idle {s : State} {w : Word} {i : Instr} (h : s.phase = .idle) (hd : decode w = .ok i) :
    issueCommand w s = exec i s := by
  unfold issueCommand
  rw [if_neg (by simp [not_busy_of_idle h]), hd]

theorem issueCommand_reserved {s : State} {w : Word} {r : DecodeReject} (h : s.phase = .idle)
    (hd : decode w = .error r) : issueCommand w s = .refused (.reservedCommand r) := by
  unfold issueCommand
  rw [if_neg (by simp [not_busy_of_idle h]), hd]

theorem issueCommand_busy {s : State} {w : Word} (h : s.phase ≠ .idle) : issueCommand w s = .refused .busyCommand := by
  unfold issueCommand
  rw [if_pos (busy_of_ne_idle h)]

theorem hostWriteByte_tx_idle {s : State} {i : Nat} (b : Byte) (hi : i < bufSize) (h : s.phase = .idle) :
    hostWriteByte (0x100 + i) b s = .next { s with txbuf := Memory.write s.txbuf i b } := by
  unfold hostWriteByte
  rw [hostTarget_tx hi]
  exact if_neg (by simp [not_busy_of_idle h])

theorem hostWriteByte_tx_busy {s : State} {i : Nat} (b : Byte) (hi : i < bufSize) (h : s.phase ≠ .idle) :
    hostWriteByte (0x100 + i) b s = .refused .busyBufferWrite := by
  unfold hostWriteByte
  rw [hostTarget_tx hi]
  exact if_pos (busy_of_ne_idle h)

theorem hostWriteByte_rx_idle {s : State} {i : Nat} (b : Byte) (hi : i < bufSize) (h : s.phase = .idle) :
    hostWriteByte (0x300 + i) b s = .next { s with rxbuf := Memory.write s.rxbuf i b } := by
  unfold hostWriteByte
  rw [hostTarget_rx hi]
  exact if_neg (by simp [not_busy_of_idle h])

theorem hostWriteByte_rx_busy {s : State} {i : Nat} (b : Byte) (hi : i < bufSize) (h : s.phase ≠ .idle) :
    hostWriteByte (0x300 + i) b s = .refused .busyBufferWrite := by
  unfold hostWriteByte
  rw [hostTarget_rx hi]
  exact if_pos (busy_of_ne_idle h)

theorem hostReadByte_tx {s : State} {i : Nat} (hi : i < bufSize) :
    hostReadByte (0x100 + i) s = readBuffer s.txbuf i s := by
  unfold hostReadByte
  rw [hostTarget_tx hi]

theorem hostReadByte_rx {s : State} {i : Nat} (hi : i < bufSize) :
    hostReadByte (0x300 + i) s = readBuffer s.rxbuf i s := by
  unfold hostReadByte
  rw [hostTarget_rx hi]

theorem readBuffer_idle {s : State} (m : Memory) (i : Nat) (h : s.phase = .idle) :
    readBuffer m i s = .next { s with hostData := (Memory.read m i).setWidth 32 } := by
  unfold readBuffer
  rw [if_neg (by simp [not_busy_of_idle h])]

theorem readBuffer_busy {s : State} (m : Memory) (i : Nat) (h : s.phase ≠ .idle) :
    readBuffer m i s = .next { s with hostData := (Config.anyByte s.draws).setWidth 32, draws := s.draws + 1 } := by
  unfold readBuffer
  rw [if_pos (busy_of_ne_idle h)]

/-- Every way one step can give a next state. -/
inductive StepTransition (s : State) : State → Prop where
  | freePoll (t : State) (h : s.inputs = []) (hp : PollTransition s.gap t) : StepTransition s t
  | poll (rest : List Input) (t : State) (h : s.inputs = .poll :: rest)
      (hp : PollTransition { s with inputs := rest } t) : StepTransition s t
  | clock (d : Nat) (rest : List Input) (h : s.inputs = .advance d :: rest) :
      StepTransition s { s.advance d with inputs := rest }
  | bytesArrive (bs : List Byte) (rest : List Input) (h : s.inputs = .arrive bs :: rest) (hl : s.lineEn = true) :
      StepTransition s { s with inputs := rest, rxq := s.rxq ++ bs }
  | bytesLost (bs : List Byte) (rest : List Input) (h : s.inputs = .arrive bs :: rest) (hl : s.lineEn = false) :
      StepTransition s { s with inputs := rest }
  | command (w : Word) (i : Instr) (rest : List Input) (t : State) (h : s.inputs = .writeWord 0x000 w :: rest)
      (hi : s.phase = .idle) (hd : decode w = .ok i) (he : CommandEffect { s with inputs := rest } i t) :
      StepTransition s t
  | ignored (m : Input) (rest : List Input) (h : s.inputs = m :: rest) (hm : m ≠ .rst) :
      StepTransition s { s with inputs := rest }
  | hostWritesTx (i : Nat) (b : Byte) (rest : List Input) (h : s.inputs = .writeByte (0x100 + i) b :: rest)
      (hi : s.phase = .idle) (hb : i < bufSize) :
      StepTransition s { s with inputs := rest, txbuf := Memory.write s.txbuf i b }
  | hostWritesRx (i : Nat) (b : Byte) (rest : List Input) (h : s.inputs = .writeByte (0x300 + i) b :: rest)
      (hi : s.phase = .idle) (hb : i < bufSize) :
      StepTransition s { s with inputs := rest, rxbuf := Memory.write s.rxbuf i b }
  | hostReads (m : Input) (rest : List Input) (w : Word) (d : Nat) (h : s.inputs = m :: rest) (hm : m ≠ .rst) :
      StepTransition s { s with inputs := rest, hostData := w, draws := d }
  | reset (rest : List Input) (h : s.inputs = .rst :: rest) : StepTransition s { s with inputs := rest }.assertReset

theorem hostWriteWord_next {a : Nat} {w : Word} {rest : List Input} {s t : State}
    (hin : s.inputs = .writeWord a w :: rest) (h : hostWriteWord a w { s with inputs := rest } = .next t) :
    StepTransition s t := by
  unfold hostWriteWord at h
  split at h
  case h_1 ht =>
    obtain rfl := hostTarget_eq_cmd ht
    unfold issueCommand at h
    split at h
    · cases h
    · rename_i hb
      split at h
      · exact .command w _ rest t hin (busy_eq_false (s := { s with inputs := rest }) hb) ‹_› (exec_next h)
      · cases h
  all_goals
    cases h
    exact .ignored _ rest hin (by simp)

theorem hostWriteByte_next {a : Nat} {b : Byte} {rest : List Input} {s t : State}
    (hin : s.inputs = .writeByte a b :: rest) (h : hostWriteByte a b { s with inputs := rest } = .next t) :
    StepTransition s t := by
  unfold hostWriteByte at h
  split at h
  case h_1 => cases h
  case h_2 => cases h
  case h_3 => cases h
  case h_4 i ht =>
    obtain ⟨rfl, hi⟩ := hostTarget_eq_tx ht
    split at h
    · cases h
    · cases h
      exact .hostWritesTx i b rest hin (busy_eq_false (s := { s with inputs := rest }) ‹_›) hi
  case h_5 i ht =>
    obtain ⟨rfl, hi⟩ := hostTarget_eq_rx ht
    split at h
    · cases h
    · cases h
      exact .hostWritesRx i b rest hin (busy_eq_false (s := { s with inputs := rest }) ‹_›) hi
  case h_6 =>
    cases h
    exact .ignored _ rest hin (by simp)

theorem readBuffer_next {m : Memory} {i a : Nat} {rest : List Input} {s t : State}
    (hin : s.inputs = .readByte a :: rest) (h : readBuffer m i { s with inputs := rest } = .next t) :
    StepTransition s t := by
  unfold readBuffer at h
  split at h
  · cases h
    exact .hostReads _ rest _ _ hin (by simp)
  · cases h
    exact .hostReads _ rest _ s.draws hin (by simp)

theorem hostReadByte_next {a : Nat} {rest : List Input} {s t : State}
    (hin : s.inputs = .readByte a :: rest) (h : hostReadByte a { s with inputs := rest } = .next t) :
    StepTransition s t := by
  unfold hostReadByte at h
  split at h
  case h_1 => cases h
  case h_2 => cases h
  case h_3 => cases h
  case h_4 => exact readBuffer_next hin h
  case h_5 => exact readBuffer_next hin h
  case h_6 =>
    cases h
    exact .hostReads _ rest 0 s.draws hin (by simp)

/-- A step that gives a next state makes one of these transitions. -/
theorem step_next {s t : State} (h : step s = .next t) : StepTransition s t := by
  unfold step nextTransition at h
  split at h
  case h_1 hin => exact .freePoll t hin (pollStep_next h)
  case h_2 m rest hin =>
    cases m with
    | poll => exact .poll rest t hin (pollStep_next h)
    | advance d => cases h; exact .clock d rest hin
    | arrive bs =>
      cases h
      unfold lineArrive
      split
      case isTrue hl => exact .bytesArrive bs rest hin hl
      case isFalse hl => exact .bytesLost bs rest hin (Bool.eq_false_iff.2 hl)
    | writeWord a w => exact hostWriteWord_next hin h
    | writeByte a b => exact hostWriteByte_next hin h
    | readWord a => cases h; exact .hostReads _ rest _ s.draws hin (by simp)
    | readByte a => exact hostReadByte_next hin h
    | rst => cases h; exact .reset rest hin

/-! ## Where a poll step stops -/

theorem complete_fault_at {r : OpResult} {s s1 : State} {f : Fault} (h : complete r s1 = .fault f)
    (e : s1.istep = s.istep) : s.istep = .wakeIdle ∨ s.istep = .wakeLow ∨ s.istep = .wakeHigh := by
  rw [← e]
  exact complete_fault h

theorem raiseError_fault_at {c : ErrorCode} {s s1 : State} {f : Fault} (h : raiseError c s1 = .fault f)
    (e : s1.istep = s.istep) : s.istep = .wakeIdle ∨ s.istep = .wakeLow ∨ s.istep = .wakeHigh :=
  complete_fault_at (s1 := { s1 with lastError := c }) h e

/-- A poll step faults only with IDX outside the buffers, or where an operation ends during the wake-up steps
(assumption logs 14 and 15). -/
theorem pollStep_fault {s : State} {f : Fault} (h : pollStep s = .fault f) :
    ((s.phase = .txPut ∨ s.phase = .txEcho ∨ s.phase = .rxAssemble) ∧ bufSize ≤ s.idx.toNat) ∨
    (s.phase ≠ .idle ∧ s.phase ≠ .initWake ∧ (s.istep = .wakeIdle ∨ s.istep = .wakeLow ∨ s.istep = .wakeHigh)) := by
  unfold pollStep at h
  split at h
  case h_1 => cases h
  case h_2 hp =>
    unfold pollTxGate at h
    split at h
    · exact .inr ⟨by simp [hp], by simp [hp], raiseError_fault_at h rfl⟩
    · cases h
  case h_3 hp =>
    unfold pollTxWait at h
    split at h <;> cases h
  case h_4 hp =>
    unfold pollTxPut at h
    split at h
    · cases h
    · exact .inl ⟨.inl hp, by rw [State.idxInBuffer_iff] at *; omega⟩
  case h_5 hp =>
    unfold pollTxEcho at h
    split at h
    · unfold echoWindowOver at h
      split at h
      · exact .inr ⟨by simp [hp], by simp [hp], complete_fault_at h rfl⟩
      · cases h
    · split at h
      case h_1 e s1 hr =>
        unfold State.lineRead at hr
        split at hr
        · cases hr
        · cases hr
          unfold checkEcho at h
          split at h
          · split at h
            · exact .inr ⟨by simp [hp], by simp [hp], raiseError_fault_at h rfl⟩
            · cases h
          · rename_i hib
            refine .inl ⟨.inr (.inl hp), ?_⟩
            rw [State.idxInBuffer_iff] at hib
            exact Nat.le_of_not_lt hib
      case h_2 => cases h
  case h_6 hp =>
    unfold pollRxAssemble at h
    split at h
    case h_1 e s1 hr =>
      unfold State.lineRead at hr
      split at hr
      · cases hr
      · cases hr
        unfold takeByte at h
        split at h
        · refine .inr ⟨by simp [hp], by simp [hp], ?_⟩
          unfold checkByte checkLength checkFinal at h
          repeat' split at h
          all_goals first | exact raiseError_fault_at h rfl | cases h
        · rename_i hib
          refine .inl ⟨.inr (.inr hp), ?_⟩
          rw [State.idxInBuffer_iff] at hib
          exact Nat.le_of_not_lt hib
    case h_2 =>
      split at h
      · exact .inr ⟨by simp [hp], by simp [hp], raiseError_fault_at h rfl⟩
      · cases h
  case h_7 hp =>
    unfold pollRxPeek at h
    split at h
    · exact .inr ⟨by simp [hp], by simp [hp], complete_fault_at h rfl⟩
    · split at h
      · exact .inr ⟨by simp [hp], by simp [hp], complete_fault_at h rfl⟩
      · cases h
  case h_8 hp =>
    unfold pollInitWake at h
    split at h <;> first | cases h | (split at h <;> cases h)

end Sys2Proof.Machine
end

