-- ==== Sys2Proof/Tests/Slice0.lean ====
section
/-! SUPPORT. The model's own tests: the checks of WellFormed, the words of 30_encoding.md, single steps taken from the
vectors of 95_test_vectors.md (named in each docstring), and a witness for the hypotheses of every obligation. -/

open Sys2Proof Sys2Proof.Machine Sys2Proof.Claims

namespace Sys2Proof.Tests

/-! ## Helpers -/

/-- The outcome is a next state of which `p` holds. -/
def holds (o : StepResult) (p : State → Bool) : Bool :=
  match o with
  | .next t => p t
  | .fault _ => false
  | .refused _ => false

/-- The outcome is this refusal. -/
def refuses (o : StepResult) (r : Refusal) : Bool :=
  match o with
  | .next _ => false
  | .fault _ => false
  | .refused x => x == r

/-- The word decodes to this command. -/
def reads (w : Word) (i : Instr) : Bool := decoded? (decode w) == some i

/-- The word is refused for this reason. -/
def rejects (w : Word) (r : DecodeReject) : Bool :=
  match decode w with
  | .ok _ => false
  | .error x => x == r

/-- A buffer with these bytes from offset 0 on. -/
def buf (bs : List Byte) : Memory := Memory.writeAll [] 0 bs

/-- The frames of 95_test_vectors.md section 0. -/
def frameSC : List Byte := [0x81, 0x11, 0xF1, 0x00, 0x83]
def frameSD : List Byte := [0x80, 0x11, 0xF1, 0x02, 0x10, 0x80, 0x14]
def frameSCP : List Byte := [0x80, 0xF1, 0x11, 0x01, 0x40, 0xC3]
def frameSRC : List Byte := [0x80, 0xF1, 0x11, 0x01, 0x50, 0xD3]

/-- The idle engine with SC in TXBUF at a time. -/
def idleAt (t : Time) : State := { State.reset with txbuf := buf frameSC, now := t }

/-- The transmitter in a phase, byte `k` of SC, REF 0. -/
def sendingAt (p : Phase) (k : Count) (t : Time) : State :=
  { State.reset with txbuf := buf frameSC, txlen := 5, idx := k, phase := p, now := t }

/-- The receiver in a phase with some bytes of a frame stored and some in the queue, REF 0, after SC and SD were sent. -/
def receivingAt (p : Phase) (stored queue : List Byte) (t : Time) : State :=
  { State.reset with
    txbuf := buf frameSD, txlen := 7, txlog := frameSC ++ frameSD, rxbuf := buf stored, idx := BitVec.ofNat 9 stored.length, total := 6, rxcap := 260, rxq := queue, phase := p,
    now := t }

/-- The wake-up phase at a step, DREF 0. -/
def wakingAt (i : InitStep) (t : Time) : State :=
  { State.reset with phase := .initWake, istep := i, lineEn := false, now := t }

/-! ## WellFormed: each check refuses an ill-formed term -/

theorem test_wf_checksum_261 : Instr.wf (.checksum .tx 261) = false := by decide
theorem test_wf_capacity_3 : Instr.wf (.receiveResponse 3) = false := by decide
theorem test_wf_capacity_261 : Instr.wf (.receiveResponse 261) = false := by decide
theorem test_wf_p3_order : Params.wf { Params.default with p3Min := 5000 } = false := by decide
theorem test_wf_init_cap_5 : Params.wf { Params.default with initRxCap := 5 } = false := by decide
theorem test_wf_init_cap_261 : Params.wf { Params.default with initRxCap := 261 } = false := by decide
theorem test_wf_defaults : Params.wf Params.default = true := by decide

/-! ## Decoding: words written out field by field from R89 to R91, OP (8 bits), must-be-zero (7), BSEL (1), IMM16 -/

theorem test_word_twReset : reads 0b00000001_0000000_0_0000000000000000 .twReset = true := by decide
theorem test_word_twElapsed : reads 0b00000010_0000000_0_0000000000110111 (.twElapsed 55) = true := by decide
theorem test_word_checksum_tx : reads 0b00000011_0000000_0_0000000100000100 (.checksum .tx 260) = true := by decide
theorem test_word_checksum_rx : reads 0b00000011_0000000_1_0000000000000101 (.checksum .rx 5) = true := by decide
theorem test_word_isPositive : reads 0b00000100_0000000_0_0000000000000000 .isPositive = true := by decide
theorem test_word_sendRequest : reads 0b00000101_0000000_0_0000000000000000 .sendRequest = true := by decide
theorem test_word_receiveResponse :
    reads 0b00000110_0000000_0_0000000000000100 (.receiveResponse 4) = true := by decide
theorem test_word_getLastError : reads 0b00000111_0000000_0_0000000000000000 .getLastError = true := by decide
theorem test_word_initialize : reads 0b00001000_0000000_0_0000000000000000 .ecuInitialize = true := by decide

/-- W5 to W12: the reserved words, each with its reason. -/
theorem test_reserved_words :
    rejects 0x00000000 .reservedOpcode ∧ rejects 0x09000000 .reservedOpcode ∧ rejects 0xFF000000 .reservedOpcode ∧
    rejects 0x01000001 .mustBeZero ∧ rejects 0x05010000 .mustBeZero ∧ rejects 0x02010005 .mustBeZero ∧
    rejects 0x03020004 .mustBeZero ∧ rejects 0x03000105 .checksumLength ∧ rejects 0x06000003 .responseCapacity ∧
    rejects 0x06000105 .responseCapacity := by decide

/-- The table's numbering: bit 0 of the row's word is bit 0 of the command word. -/
theorem test_decodeTableWord :
    decodeTableWord 32 0x03010005 = some (.checksum .rx 5) ∧ decodeTableWord 32 0x09000000 = none := by decide

theorem test_encode_checksum : encode (.checksum .rx 5) = 0x03010005 := by decide
theorem test_encode_receive : encode (.receiveResponse 260) = 0x06000104 := by decide

/-! ## Single steps from the vectors -/

/-- T1. -/
theorem test_twReset : holds (execTwReset (idleAt 0x10000)) (fun t => t.ref == 0x10000 && t.result == .none) = true := by
  decide

/-- T5a, T5b: the threshold is strict. -/
theorem test_twElapsed_strict :
    holds (execTwElapsed 55 { idleAt 56000 with ref := 1000 }) (fun t => t.result == .bool false) = true ∧
    holds (execTwElapsed 55 { idleAt 56001 with ref := 1000 }) (fun t => t.result == .bool true) = true := by decide

/-- T6b, T6c: the clock wraps. -/
theorem test_twElapsed_wraps :
    holds (execTwElapsed 1 { idleAt 0x100 with ref := 0xFFFFFF00 }) (fun t => t.result == .bool false) = true ∧
    holds (execTwElapsed 1 { idleAt 0x2E9 with ref := 0xFFFFFF00 }) (fun t => t.result == .bool true) = true := by decide

/-- K1: 0x183 modulo 256. -/
theorem test_checksum_tx : holds (execChecksum .tx 4 (idleAt 0)) (fun t => resultWord t.result == 0x583) = true := by
  decide

/-- K2: the other buffer. -/
theorem test_checksum_rx :
    holds (execChecksum .rx 5 { idleAt 0 with rxbuf := buf frameSRC }) (fun t => resultWord t.result == 0x5D3) = true := by
  decide

/-- V1, V2: the offset of the service identifier depends on the format byte. -/
theorem test_isPositive_offset :
    holds (execIsPositive { idleAt 0 with txbuf := buf frameSD, rxbuf := buf frameSRC })
      (fun t => t.result == .bool true) = true ∧
    holds (execIsPositive { idleAt 0 with rxbuf := buf frameSRC }) (fun t => t.result == .bool false) = true := by decide

/-- V6: no 8-bit wrap. -/
theorem test_isPositive_no_wrap :
    holds (execIsPositive { idleAt 0 with
      txbuf := buf [0x80, 0x11, 0xF1, 0x01, 0xC0, 0x43],
      rxbuf := buf [0x80, 0xF1, 0x11, 0x01, 0x00, 0x83] }) (fun t => t.result == .bool false) = true := by decide

/-- P1 and P2: the lengths 5 and 7. -/
theorem test_sendRequest :
    holds (execSendRequest (idleAt 60000)) (fun t => t.txlen == 5 && t.idx == 0 && t.phase == .txGate) = true ∧
    holds (execSendRequest { idleAt 60000 with txbuf := buf frameSD }) (fun t => t.txlen == 7) = true := by decide

/-- X2a, X2b: P3_MAX is strict, and the error is RESULT 0x301. -/
theorem test_txGate :
    holds (pollStep (sendingAt .txGate 0 5000001))
      (fun t => resultWord t.result == 0x301 && t.lastError == .p3MaxExceeded && t.phase == .idle) = true ∧
    holds (pollStep (sendingAt .txGate 0 5000000)) (fun t => t.phase == .txWait) = true := by decide

/-- P3: the echo F0 of F1 raises ECHO_MISMATCH. -/
theorem test_echo_mismatch :
    holds (pollStep { sendingAt .txEcho 2 71002 with ref := 70002, rxq := [0xF0] })
      (fun t => resultWord t.result == 0x308 && t.rxq == [] && t.idx == 2 && t.ref == 70002) = true := by decide

/-- P1: 5000 is not past P4_MIN, 5001 is, and the last window ends the command. -/
theorem test_echo_window :
    holds (pollStep { sendingAt .txEcho 4 85004 with ref := 80004 }) (fun t => t.phase == .txEcho) = true ∧
    holds (pollStep { sendingAt .txEcho 4 85005 with ref := 80004 })
      (fun t => t.result == .finished && t.phase == .idle && t.idx == 5) = true := by decide

/-- P1: RECEIVE_RESPONSE 260. -/
theorem test_receiveResponse :
    holds (execReceiveResponse 260 { idleAt 85100 with ref := 80004 })
      (fun t => t.rxcap == 260 && t.idx == 0 && t.phase == .rxAssemble && t.ref == 80004) = true := by decide

/-- Y6: the failing checksum byte is stored and resets the window. -/
theorem test_checksum_mismatch :
    holds (pollStep (receivingAt .rxAssemble [0x80, 0xF1, 0x11, 0x01, 0x50] [0xD4] 115000))
      (fun t => resultWord t.result == 0x307 && Memory.read t.rxbuf 5 == 0xD4 && t.ref == 115000 && t.idx == 5) = true := by
  decide

/-- Y5a: 260 is more than 259. -/
theorem test_overflow :
    holds (pollStep { receivingAt .rxAssemble [0x80, 0xF1, 0x11] [0xFF, 0x00] 113000 with rxcap := 259 })
      (fun t => resultWord t.result == 0x306 && t.total == 260 && t.idx == 3 && t.rxq == [0x00]) = true := by decide

/-- Y9: the byte that makes the result PENDING is not read and resets nothing. -/
theorem test_pending :
    holds (pollStep { receivingAt .rxPeek frameSCP [0x80] 135000 with ref := 115000 })
      (fun t => resultWord t.result == 0x200 && t.rxq == [0x80] && t.ref == 115000) = true := by decide

/-- E1, E2. -/
theorem test_getLastError :
    holds (execGetLastError State.reset) (fun t => resultWord t.result == 0x600) = true ∧
    holds (execGetLastError { State.reset with lastError := .checksumMismatch }) (fun t => resultWord t.result == 0x607) =
      true := by decide

/-- I1, first line: STATUS 0x171. -/
theorem test_initialize :
    holds (execEcuInitialize (idleAt 1000))
      (fun t => statusWord t == 0x171 && t.ref == 1000 && t.dref == 1000 && !t.lineEn && t.wakePin) = true := by decide

/-- I1, at 401000: the start-communication request is in TXBUF and RXQ is empty. -/
theorem test_line_resumed :
    holds (pollStep { wakingAt .wakeHigh 401000 with dref := 376000, rxq := [0x55] })
      (fun t => Memory.bytes t.txbuf 5 == frameSC && t.rxq == [] && t.lineEn && t.istep == .sendStart) = true := by decide

/-! ## The host port (W14 to W19) -/

theorem test_busy_command_refused :
    refuses (step { sendingAt .txEcho 0 1 with inputs := [.writeWord 0 0x01000000] }) .busyCommand = true := by decide

theorem test_busy_buffer_write_refused :
    refuses (step { sendingAt .txEcho 0 1 with inputs := [.writeByte 0x100 0xAA] }) .busyBufferWrite = true := by decide

theorem test_reserved_read :
    holds (step { idleAt 0 with inputs := [.readByte 0x204], hostData := 7 }) (fun t => t.hostData == 0) = true := by decide

theorem test_byte_access_to_status_refused :
    refuses (step { idleAt 0 with inputs := [.readByte 0x004] }) .mixedWidthAccess = true := by decide

/-- The clock wraps at 2^TIME_WIDTH (00_scope.md R9), and bytes reach RXQ in their order while LINE_EN is 1 (10_state.md R34,
R40). -/
theorem test_environment_moves :
    holds (step { idleAt 0xFFFFFFFF with inputs := [.advance 2] }) (fun t => t.now == 1) = true ∧
    holds (step { idleAt 0xFFFE with params := { Params.default with timeWidth := 16 }, inputs := [.advance 3] })
      (fun t => t.now == 1) = true ∧
    holds (step { idleAt 0 with rxq := [0x01], inputs := [.arrive [0x02, 0x03]] })
      (fun t => t.rxq == [0x01, 0x02, 0x03]) = true ∧
    holds (step { wakingAt .wakeIdle 0 with inputs := [.arrive [0x02]] }) (fun t => t.rxq == []) = true := by decide

/-! ## A run from reset (assumption log 17) -/

/-- Each command runs as the first step after reset when it is placed. -/
theorem test_placed_commands_run :
    holds (step (State.reset.withFetchWord 32 0x01000000)) (fun t => t.phase == .idle) = true ∧
    holds (step (State.reset.withFetchWord 32 0x02000005)) (fun t => t.result == .bool false) = true ∧
    holds (step (State.reset.withFetchWord 32 0x03000004)) (fun t => t.result == .byte 0) = true ∧
    holds (step (State.reset.withFetchWord 32 0x04000000)) (fun t => t.result == .bool false) = true ∧
    holds (step (State.reset.withFetchWord 32 0x05000000)) (fun t => t.phase == .txGate) = true ∧
    holds (step (State.reset.withFetchWord 32 0x06000104)) (fun t => t.phase == .rxAssemble) = true ∧
    holds (step (State.reset.withFetchWord 32 0x07000000)) (fun t => t.result == .errcode .errNone) = true ∧
    holds (step (State.reset.withFetchWord 32 0x08000000)) (fun t => t.phase == .initWake) = true := by decide

/-! ## Witnesses: for each obligation with hypotheses, states and operands that meet them, at the ends of every range -/

theorem witness_DecodeOfEncode :
    Instr.wf (.checksum .rx 0) ∧ Instr.wf (.checksum .tx 260) ∧ Instr.wf (.receiveResponse 4) ∧
    Instr.wf (.receiveResponse 260) ∧ Instr.wf (.twElapsed 65535) := by decide

theorem witness_DecodedWordsAreEncodings : decode 0x0301_0104 = .ok (.checksum .rx 260) := rfl

/-- One word for each condition of R92 at its boundary, and words just outside them. -/
theorem witness_ReservedWordsAreRefused :
    (∀ w ∈ [0x00FF_FFFF, 0x0900_0000, 0x0800_0001, 0x0201_0000, 0x0601_0004, 0x0302_0000, 0x0301_0105, 0x0600_0003,
      0x0600_0105], reservedWord w) ∧
    (∀ w ∈ [0x0800_0000, 0x0200_FFFF, 0x0301_0104, 0x0600_0004, 0x0600_0104], ¬ reservedWord w) ∧
    (State.reset.placeCommand 0x0900_0000).inputs = [.writeWord 0x000 0x0900_0000] ∧
    (State.reset.placeCommand 0x0900_0000).phase = .idle ∧ (sendingAt .txGate 0 0).phase ≠ .idle :=
  ⟨by simp [reservedWord, reservedFields], by simp [reservedWord, reservedFields], rfl, rfl, by decide⟩

theorem witness_CommandWriteRunsDecodedCommand :
    (State.reset.placeCommand 0x0500_0000).inputs = [.writeWord 0x000 0x0500_0000] ∧
    (State.reset.placeCommand 0x0500_0000).phase = .idle ∧ decode 0x0500_0000 = .ok .sendRequest ∧
    (sendingAt .txGate 0 0).phase ≠ .idle ∧
    exec .sendRequest State.reset = .next (State.reset.startTransmit (requestLength State.reset.txbuf)) :=
  ⟨rfl, rfl, rfl, by decide, rfl⟩

theorem witness_PollsClockAndLineMovesHappenAsListed :
    ({ State.reset with inputs := [.poll] } : State).inputs = [.poll] ∧ State.reset.phase = .idle ∧
    State.reset.inputs = [] ∧ ({ State.reset with inputs := [.advance 1] } : State).inputs = [.advance 1] ∧
    ({ State.reset with inputs := [.arrive [0x55]] } : State).inputs = [.arrive [0x55]] ∧ State.reset.lineEn = true ∧
    (wakingAt .wakeIdle 0).lineEn = false := ⟨rfl, rfl, rfl, rfl, rfl, rfl, rfl⟩

theorem witness_HostBufferWriteThenRead :
    State.reset.phase = .idle ∧ 0 < 260 ∧ 259 < 260 ∧ Memory.wf (idleAt 0).txbuf = true ∧
    Memory.wf State.reset.rxbuf = true := by decide

theorem witness_BusyBuffersBelongToTheEngine : (sendingAt .txEcho 0 0).phase ≠ .idle ∧ 259 < 260 := by decide

theorem witness_StatusAndResultReads :
    ({ State.reset with inputs := [.readWord 0x004] } : State).inputs = [.readWord 0x004] ∧
    ({ State.reset with inputs := [.readWord 0x008] } : State).inputs = [.readWord 0x008] := ⟨rfl, rfl⟩

theorem witness_AccessesOutsideTheRegisterMap :
    (∀ a ∈ [0x001, 0x00C, 0x0FF, 0x204, 0x2FF, 0x404], ¬ mappedAddress a) ∧
    (∀ a ∈ [0x000, 0x004, 0x008, 0x100, 0x203, 0x300, 0x403], mappedAddress a) ∧
    (∀ a ∈ [0x100, 0x203, 0x300, 0x403], a ≠ 0x000 ∧ a ≠ 0x004 ∧ a ≠ 0x008) := by decide

theorem witness_WindowOpensStrictlyAfterThreshold :
    0 < 2 ^ State.reset.params.timeWidth ∧ 2 ^ 32 - 1 < 2 ^ State.reset.params.timeWidth := by decide

theorem witness_ChecksumIsTheSumModulo256 : (260 : BitVec 16).toNat ≤ 260 ∧ 260 < (261 : BitVec 16).toNat := by decide

/-- K1 and K6: the same bytes in another order. -/
theorem witness_ChecksumIgnoresByteOrder :
    (Memory.bytes (buf [0x81, 0x11, 0xF1, 0x00]) 4).Perm (Memory.bytes (buf [0x11, 0x81, 0x00, 0xF1]) 4) := by decide

theorem witness_SingleChangedByteChangesChecksum :
    Memory.wf (buf frameSC) = true ∧ 3 < 4 ∧ (0x01 : Byte) ≠ Memory.read (buf frameSC) 3 ∧ 4 ≤ 4 := by decide

/-- X2a, X2b: one microsecond apart. -/
theorem witness_TxGateTestsP3Max :
    (sendingAt .txGate 0 5000001).phase = .txGate ∧
    windowPassed (sendingAt .txGate 0 5000001) Params.default.p3Max ∧
    ¬ windowPassed (sendingAt .txGate 0 5000000) Params.default.p3Max := by decide

theorem witness_TxWaitHoldsUntilP3Min :
    (sendingAt .txWait 0 55001).phase = .txWait ∧ windowPassed (sendingAt .txWait 0 55001) Params.default.p3Min ∧
    ¬ windowPassed (sendingAt .txWait 0 55000) Params.default.p3Min := by decide

theorem witness_TxPutWritesAndResetsWindow :
    (sendingAt .txPut 0 0).phase = .txPut ∧ (sendingAt .txPut 0 0).idx.toNat < 260 ∧
    (sendingAt .txPut 259 0).idx.toNat < 260 := by decide

theorem witness_TxEchoComparesEveryByte :
    (sendingAt .txEcho 4 5001).phase = .txEcho ∧ windowPassed (sendingAt .txEcho 4 5001) Params.default.p4Min ∧
    (sendingAt .txEcho 4 5001).idx + 1 = (sendingAt .txEcho 4 5001).txlen ∧
    (sendingAt .txEcho 3 5001).idx + 1 ≠ (sendingAt .txEcho 3 5001).txlen ∧
    ¬ windowPassed (sendingAt .txEcho 4 5000) Params.default.p4Min ∧ (sendingAt .txEcho 4 5000).rxq = [] ∧
    (0x83 : Byte) = Memory.read (sendingAt .txEcho 4 5000).txbuf 4 ∧
    (0x82 : Byte) ≠ Memory.read (sendingAt .txEcho 4 5000).txbuf 4 := by decide

/-- Times below 2^32 fit the default clock. -/
theorem clock_fits {t : Time} (ht : t < 2 ^ 32) (s : State) (h1 : s.params.timeWidth = 32) (h2 : s.now = t)
    (h3 : s.ref = 0) (h4 : s.dref = 0) : ClockFits s := by
  unfold ClockFits
  rw [h1, h2, h3, h4]
  exact ⟨ht, by decide, by decide⟩

/-- The transmitter's states meet the invariant, the host's and INITIALIZE's. -/
theorem sendingAt_inv (p : Phase) (k : Count) (t : Time) (i : InitStep) (ht : t < 2 ^ 32) (hp : p.sending = true)
    (h0 : p = .txGate ∨ p = .txWait → k = 0) (hk : k < 5)
    (hi : i = .notRunning ∨ i = .sendStart ∨ i = .sendSession) : Machine.Inv { sendingAt p k t with istep := i } :=
  Inv.of_sending (show Params.default.wf = true by decide) (clock_fits ht _ rfl rfl rfl rfl)
    (show Memory.wf (buf frameSC) = true by decide) rfl hp hi rfl rfl h0
    ⟨show 5 = requestLength (buf frameSC) by decide, hk⟩

/-- Outside INITIALIZE only the running request counts. -/
theorem sent_host {s : State} (hi : s.istep = .notRunning) (h : Memory.bytes s.txbuf s.sentCount <:+ s.txlog) :
    SentSoFar s := by
  constructor <;> first | exact h | simp [hi]

theorem witness_EveryStepKeepsSentSoFar :
    Machine.Inv { sendingAt .txPut 0 0 with inputs := [.poll] } ∧
    SentSoFar { sendingAt .txPut 0 0 with inputs := [.poll] } ∧
    holds (step { sendingAt .txPut 0 0 with inputs := [.poll] }) (fun t => t.txlog == [0x81]) = true :=
  ⟨(sendingAt_inv .txPut 0 0 .notRunning (by decide) rfl (by simp) (by decide) (.inl rfl)).frame rfl rfl rfl rfl rfl rfl rfl
      rfl rfl rfl rfl (clock_fits (t := 0) (by decide) _ rfl rfl rfl rfl),
    sent_host rfl List.nil_suffix, by decide⟩

/-- The last echo window of SC, the host's or INITIALIZE's first request. -/
abbrev lastEcho (i : InitStep) (t : Time) (q : List Byte) : State :=
  { sendingAt .txEcho 4 t with istep := i, txlog := frameSC, rxq := q }

theorem lastEcho_inv (i : InitStep) (t : Time) (q : List Byte) (ht : t < 2 ^ 32) (hi : i = .notRunning ∨ i = .sendStart) :
    Machine.Inv (lastEcho i t q) ∧ SentSoFar (lastEcho i t q) :=
  ⟨(sendingAt_inv .txEcho 4 t i ht rfl (by simp) (by decide) (hi.imp id .inl)).frame rfl rfl rfl rfl rfl rfl rfl rfl rfl rfl
      rfl (clock_fits ht _ rfl rfl rfl rfl), by
    have hc : Memory.bytes (buf frameSC) 5 = frameSC := by decide
    rcases hi with rfl | rfl
    · exact sent_host rfl ⟨[], hc⟩
    · exact ⟨⟨[], hc⟩, fun _ => ⟨rfl, show Memory.bytes (buf frameSC) 5 = startRequest Params.default by decide⟩,
        nofun, by simp, nofun, nofun⟩⟩

/-- An echo window that is over, and one that is not with a wrong echo: both ways to end, outside INITIALIZE and in it. -/
theorem witness_FinishedMeansWholeRequestSent :
    (∀ i ∈ [InitStep.notRunning, .sendStart], ∀ q ∈ [[], [(0x00 : Byte)]], ∀ t ∈ [5000, 5001],
      Machine.Inv (lastEcho i t q) ∧ SentSoFar (lastEcho i t q) ∧ (lastEcho i t q).phase = .txEcho) ∧
    holds (pollStep (lastEcho .notRunning 5001 [])) (fun t => t.phase == .idle && t.result == .finished) = true ∧
    holds (pollStep (lastEcho .notRunning 5000 [0x00])) (fun t => t.result == .error .echoMismatch) = true ∧
    holds (pollStep (lastEcho .sendStart 5001 [])) (fun t => t.phase == .rxAssemble && t.istep == .recvStart) = true ∧
    holds (pollStep (lastEcho .sendStart 5000 [0x00])) (fun t => t.phase == .idle && t.result == .bool false) = true := by
  refine ⟨fun i hi q _ t ht => ?_, by decide, by decide, by decide, by decide⟩
  have h := lastEcho_inv i t q (by simp at ht; rcases ht with rfl | rfl <;> decide) (by simpa using hi)
  exact ⟨h.1, h.2, rfl⟩

theorem witness_ReceiveResponseStartsAssembling :
    (4 ≤ (4 : BitVec 16).toNat ∧ (260 : BitVec 16).toNat ≤ 260) ∧
    ¬ (4 ≤ (3 : BitVec 16).toNat ∧ (3 : BitVec 16).toNat ≤ 260) ∧
    ¬ (4 ≤ (261 : BitVec 16).toNat ∧ (261 : BitVec 16).toNat ≤ 260) := by decide

/-- Each header index with its right byte; any other byte is the other clause. -/
theorem witness_HeaderBytesAreChecked :
    (receivingAt .rxAssemble [] [0x80] 1).idx = 0 ∧ (0x80 : Byte) = Params.default.rxFormat ∧
    (receivingAt .rxAssemble [0x80] [0xF1] 1).idx = 1 ∧ (0xF1 : Byte) = Params.default.testerAddr ∧
    (receivingAt .rxAssemble [0x80, 0xF1] [0x11] 1).idx = 2 ∧ (0x11 : Byte) = Params.default.ecuAddr ∧
    (0x7F : Byte) ≠ Params.default.rxFormat ∧ (0xF0 : Byte) ≠ Params.default.testerAddr ∧
    (0x12 : Byte) ≠ Params.default.ecuAddr ∧ (receivingAt .rxAssemble [] [0x80] 1).rxq = [0x80] ∧
    (receivingAt .rxAssemble [] [0x80] 1).phase = .rxAssemble := by decide

/-- Y5a' and Y5a: length byte 0xFF against capacities 260 and 259. -/
theorem witness_LengthByteIsHeldToCapacity :
    (receivingAt .rxAssemble [0x80, 0xF1, 0x11] [0xFF] 1).idx = 3 ∧ (0xFF : Byte).toNat + 5 ≤ (260 : Count).toNat ∧
    (259 : Count).toNat < (0xFF : Byte).toNat + 5 := by decide

theorem witness_FinalByteMustBeTheChecksum :
    let s := receivingAt .rxAssemble [0x80, 0xF1, 0x11, 0x01, 0x50] [0xD3] 1
    s.phase = .rxAssemble ∧ 4 ≤ s.idx.toNat ∧ s.idx.toNat < 260 ∧ Memory.wf s.rxbuf = true ∧
    s.idx.toNat + 1 = s.total.toNat ∧ (0xD3 : Byte) = sum8 s.rxbuf s.idx.toNat ∧
    (0xD4 : Byte) ≠ sum8 s.rxbuf s.idx.toNat ∧
    (receivingAt .rxAssemble [0x80, 0xF1, 0x11, 0x01] [0x50] 1).idx.toNat + 1 ≠ s.total.toNat := by decide

/-- Two bytes of a response are in RXBUF: the invariant holds, whatever waits in the queue and whatever is listed. -/
theorem receiving_inv (q : List Byte) (l : List Input) :
    Machine.Inv { receivingAt .rxAssemble [0x80, 0xF1] q 1 with inputs := l } :=
  Inv.of_receiving (show Params.default.wf = true by decide) (clock_fits (t := 1) (by decide) _ rfl rfl rfl rfl)
    (show Memory.wf (buf frameSD) = true by decide) (show Memory.wf (buf [0x80, 0xF1]) = true by decide) rfl (.inl rfl) rfl
    rfl
    ⟨show 4 ≤ (260 : Count).toNat by decide, show (260 : Count).toNat ≤ bufSize by decide,
      ⟨fun _ => show Memory.read (buf [0x80, 0xF1]) 0 = Params.default.rxFormat by decide,
        fun _ => show Memory.read (buf [0x80, 0xF1]) 1 = Params.default.testerAddr by decide,
        fun h => absurd (show 3 ≤ (2 : Count).toNat from h) (by decide),
        fun h => absurd (show 4 ≤ (2 : Count).toNat from h) (by decide)⟩⟩
    (fun _ => .inl (show (2 : Count).toNat ≤ 3 by decide)) (fun h => (by cases h))

theorem witness_EachReceivedByteIsStoredAtItsIndex :
    Machine.Inv (receivingAt .rxAssemble [0x80, 0xF1] [0x11] 1) ∧
    (receivingAt .rxAssemble [0x80, 0xF1] [0x11] 1).phase = .rxAssemble ∧
    (receivingAt .rxAssemble [0x80, 0xF1] [0x11] 1).rxq = [0x11] := ⟨receiving_inv [0x11] [], rfl, rfl⟩

theorem witness_SilentLineTimesOut :
    (receivingAt .rxAssemble [] [] 50001).phase = .rxAssemble ∧ (receivingAt .rxAssemble [] [] 50001).rxq = [] ∧
    windowPassed (receivingAt .rxAssemble [] [] 50001) Params.default.p2Max ∧
    ¬ windowPassed (receivingAt .rxAssemble [] [] 50000) Params.default.p2Max := by decide

theorem witness_PeekTellsPendingFromFinished :
    (receivingAt .rxPeek frameSCP [0x80] 0).phase = .rxPeek ∧ (receivingAt .rxPeek frameSCP [0x80] 0).rxq ≠ [] ∧
    (receivingAt .rxPeek frameSCP [] 0).rxq = [] ∧
    windowPassed (receivingAt .rxPeek frameSCP [] 50001) Params.default.p2Max ∧
    ¬ windowPassed (receivingAt .rxPeek frameSCP [] 50000) Params.default.p2Max := by decide

/-- A whole frame under observation meets the invariant, whatever waits in the queue, outside INITIALIZE and in it. -/
theorem peeking_inv (i : InitStep) (f q : List Byte) (t : Time) (ht : t < 2 ^ 32) (hf : f = frameSCP ∨ f = frameSRC)
    (hi : i = .notRunning ∨ i = .recvStart ∨ i = .recvSession) :
    Machine.Inv { receivingAt .rxPeek f q t with istep := i } := by
  refine Inv.of_receiving (show Params.default.wf = true by decide) (clock_fits ht _ rfl rfl rfl rfl)
    (show Memory.wf (buf frameSD) = true by decide) (show Memory.wf (buf f) = true from ?_) rfl hi rfl rfl
    ⟨show 4 ≤ (260 : Count).toNat by decide, show (260 : Count).toNat ≤ bufSize by decide,
      ⟨fun _ => show Memory.read (buf f) 0 = Params.default.rxFormat from ?_,
        fun _ => show Memory.read (buf f) 1 = Params.default.testerAddr from ?_,
        fun _ => show Memory.read (buf f) 2 = Params.default.ecuAddr from ?_,
        fun _ => show (6 : Count) = len9 (Memory.read (buf f) 3) ∧ (6 : Count) ≤ 260 from ?_⟩⟩
    (fun h => (by cases h))
    (fun _ => ⟨show BitVec.ofNat 9 f.length = 6 from ?_, show 4 ≤ (BitVec.ofNat 9 f.length).toNat from ?_,
      show Memory.read (buf f) 5 = sum8 (buf f) 5 from ?_⟩)
  all_goals rcases hf with rfl | rfl <;> decide

/-- A whole frame observed to its end or with a byte behind it, and a wrong header byte; outside INITIALIZE and in it. -/
theorem witness_EndedReceptionHoldsAcceptedFrame :
    Machine.Inv (receivingAt .rxPeek frameSCP [] 50001) ∧ Machine.Inv (receivingAt .rxPeek frameSCP [0x80] 0) ∧
    Machine.Inv { receivingAt .rxPeek frameSRC [] 50001 with istep := .recvSession } ∧
    holds (pollStep (receivingAt .rxPeek frameSCP [] 50001))
      (fun t => t.phase == .idle && t.result == .finished) = true ∧
    holds (pollStep (receivingAt .rxPeek frameSCP [0x80] 0))
      (fun t => t.phase == .idle && t.result == .pending) = true ∧
    holds (pollStep (receivingAt .rxAssemble [0x80, 0xF1] [0x12] 1))
      (fun t => t.phase == .idle && t.result == .error .badSourceAddress) = true ∧
    holds (pollStep { receivingAt .rxPeek frameSRC [] 50001 with istep := .recvSession })
      (fun t => t.phase == .idle && t.result == .bool true) = true ∧
    holds (pollStep { receivingAt .rxPeek frameSCP [] 50001 with istep := .recvStart, txbuf := buf frameSC })
      (fun t => t.phase == .txGate && t.istep == .sendSession) = true ∧
    holds (pollStep { receivingAt .rxAssemble [0x80, 0xF1] [0x12] 1 with istep := .recvStart })
      (fun t => t.phase == .idle && t.lastError == .badSourceAddress && t.result == .bool false) = true :=
  ⟨peeking_inv .notRunning frameSCP [] 50001 (by decide) (.inl rfl) (.inl rfl),
    peeking_inv .notRunning frameSCP [0x80] 0 (by decide) (.inl rfl) (.inl rfl),
    peeking_inv .recvSession frameSRC [] 50001 (by decide) (.inr rfl) (.inr (.inr rfl)),
    by decide, by decide, by decide, by decide, by decide, by decide⟩

theorem witness_IssuingACommandKeepsTheErrorSlot : Instr.wf (.receiveResponse 260) = true := by decide

/-- Every ISTEP a clause of RaiseRecordsTheCodeAndEnds, ExchangesContinueOrFail or WakePatternDrivesThePin names. -/
theorem witness_isteps :
    State.reset.istep = .notRunning ∧
    ∀ i ∈ [InitStep.sendStart, .recvStart, .sendSession, .recvSession, .wakeIdle, .wakeLow, .wakeHigh],
      ({ State.reset with istep := i } : State).istep = i := ⟨rfl, fun _ _ => rfl⟩

/-- Both values of the predicate that ExchangesContinueOrFail and SessionRequestFollowsPositiveReply assume. -/
theorem witness_positive :
    State.positive { idleAt 0 with istep := .recvStart, rxbuf := buf frameSCP } = true ∧
    State.positive { idleAt 0 with istep := .recvStart, rxbuf := buf frameSRC } = false ∧
    Memory.wf (State.txbuf { idleAt 0 with istep := .recvStart, rxbuf := buf frameSCP }) = true := by decide

theorem witness_ResultKindsOfTheRunningCommand :
    holds (pollStep (sendingAt .txGate 0 0)) (fun t => t.phase == .txWait) = true ∧
    holds (pollStep { receivingAt .rxPeek frameSCP [0x80] 0 with istep := .recvStart })
      (fun t => t.phase == .idle) = true ∧
    holds (pollStep (sendingAt .txEcho 4 5001)) (fun t => t.phase == .idle) = true ∧
    holds (pollStep (receivingAt .rxPeek frameSCP [0x80] 0)) (fun t => t.phase == .idle) = true := by decide

/-- The ends of the three wake-up intervals, each with the microsecond before. -/
theorem witness_WakePatternDrivesThePin :
    delayPassed (wakingAt .wakeIdle 350000) Params.default.wIdleMs ∧
    ¬ delayPassed (wakingAt .wakeIdle 349999) Params.default.wIdleMs ∧
    delayPassed (wakingAt .wakeLow 25000) Params.default.wLowMs ∧
    ¬ delayPassed (wakingAt .wakeLow 24999) Params.default.wLowMs ∧
    delayPassed (wakingAt .wakeHigh 25000) Params.default.wHighMs ∧
    ¬ delayPassed (wakingAt .wakeHigh 24999) Params.default.wHighMs := by decide

theorem witness_StartRequestBytes :
    (wakingAt .wakeHigh 25000).phase = .initWake ∧ (wakingAt .wakeHigh 25000).istep = .wakeHigh ∧
    Memory.wf (wakingAt .wakeHigh 25000).txbuf = true ∧ delayPassed (wakingAt .wakeHigh 25000) Params.default.wHighMs ∧
    holds (pollStep (wakingAt .wakeHigh 25000)) (fun t => t.phase == .txGate) = true := by decide

/-- INITIALIZE ends true: the second response, SRC to SD, after its observation window (I2b). -/
theorem witness_TrueOnlyAfterBothExchanges :
    let s : State := { receivingAt .rxPeek frameSRC [] 50001 with istep := .recvSession }
    Machine.Inv s ∧ SentSoFar s ∧ s.istep ≠ .notRunning ∧
    holds (pollStep s) (fun t => t.phase == .idle && t.result == .bool true) = true :=
  ⟨peeking_inv .recvSession frameSRC [] 50001 (by decide) (.inr rfl) (.inr (.inr rfl)), by
    constructor <;> intros <;> first | exact ⟨rfl, by decide⟩ | exact ⟨[], by decide⟩ | exact List.nil_suffix | simp_all,
    by decide, by decide⟩

/-- A busy engine that meets the invariant, with any moves listed. -/
theorem busy_inv (l : List Input) : Machine.Inv { receivingAt .rxPeek frameSCP [0x80] 0 with inputs := l } :=
  (peeking_inv .notRunning frameSCP [0x80] 0 (by decide) (.inl rfl) (.inl rfl)).frame rfl rfl rfl rfl rfl rfl rfl rfl rfl
    rfl rfl (clock_fits (t := 0) (by decide) _ rfl rfl rfl rfl)

/-- A step from a state that meets the invariant, for the statements about every step; the poll step ends a command. -/
theorem witness_EveryStep :
    Machine.Inv { receivingAt .rxPeek frameSCP [0x80] 0 with inputs := [.poll] } ∧
    State.waitOver { receivingAt .rxPeek frameSCP [0x80] 0 with inputs := [.poll] } = true ∧
    holds (step { receivingAt .rxPeek frameSCP [0x80] 0 with inputs := [.poll] }) (fun t => t.phase == .idle) = true ∧
    holds (pollStep { receivingAt .rxPeek frameSCP [0x80] 0 with inputs := [.poll] }) (fun t => t.phase == .idle) =
      true := ⟨busy_inv _, by decide, by decide, by decide⟩

/-- Every other move of the environment that a busy engine lets happen. -/
theorem witness_RankFallsWhenAWaitIsOver :
    (receivingAt .rxPeek frameSCP [0x80] 0).phase ≠ .idle ∧
    ∀ m ∈ [Input.advance 1, .arrive [0x00], .writeWord 0x004 0, .writeByte 0x0FF 0, .readWord 0x004, .readByte 0x100],
      Machine.Inv { receivingAt .rxPeek frameSCP [0x80] 0 with inputs := [m] } ∧ m ≠ .poll ∧ m ≠ .rst ∧
      holds (step { receivingAt .rxPeek frameSCP [0x80] 0 with inputs := [m] }) (fun t => t.phase == .rxPeek) = true :=
  ⟨by decide, fun m hm => ⟨busy_inv [m], by simp at hm; rcases hm with rfl | rfl | rfl | rfl | rfl | rfl <;> decide⟩⟩

/-- At its first point the third byte of a frame waits and is a wrong source address; idle and polled from then on. -/
def shortRun (n : Nat) : State :=
  match n with
  | 0 => { receivingAt .rxAssemble [0x80, 0xF1] [0x12] 1 with inputs := [.poll] }
  | _ + 1 =>
    { receivingAt .idle [0x80, 0xF1, 0x12] [] 1 with
      idx := 2, ref := 1, inputs := [.poll], lastError := .badSourceAddress, result := .error .badSourceAddress }

/-- The run of `shortRun` is a fair run that starts busy. -/
theorem witness_FairRunsEndEveryCommand :
    Run shortRun ∧ Machine.Inv (shortRun 0) ∧ Fair shortRun ∧ (shortRun 0).phase ≠ .idle := by
  refine ⟨fun n => ?_, receiving_inv [0x12] [.poll],
    ⟨fun n _ => ⟨n + 1, by omega, .inl rfl⟩, fun n _ _ _ => ⟨n + 1, by omega, .inl rfl⟩⟩, by decide⟩
  cases n with
  | zero => exact .stepped { shortRun 1 with inputs := [] } [.poll] rfl
  | succ n => exact .stepped { shortRun 1 with inputs := [] } [.poll] rfl

theorem witness_ResetEventAbandonsTheCommand :
    ({ sendingAt .txEcho 2 70500 with inputs := [.rst] } : State).inputs = [.rst] := rfl

end Sys2Proof.Tests
end

/-! # Scope (00_scope.md)

Every step keeps the invariant `Inv`, every poll step that finds its wait over lowers `State.rank`, and so every command
of a fair run ends (R10, R270). Beside it: what a step appends to TXLOG (R18), the listed moves (R8, R9) and the endings
without an error (R19). -/

namespace Sys2Proof.Machine

/-! ## The invariant along a step (10_state.md R24 to R28, R34) -/

/-- What the invariant asks of every engine outside the wake-up phase, whatever its phase: `Inv` without the clauses on
the frame being sent or received. -/
structure LineReady (s : State) : Prop where
  params_wf : s.params.wf = true
  clock : ClockFits s
  txbuf_wf : Memory.wf s.txbuf = true
  rxbuf_wf : Memory.wf s.rxbuf = true
  lineEn : s.lineEn = true
  wakePin : s.wakePin = true

theorem Inv.lineReady {s : State} (hI : Inv s) (h : s.phase ≠ .initWake) : LineReady s := by
  have hl : s.lineEn = true ∧ s.wakePin = true := by
    cases hp : s.phase with
    | idle => exact (hI.idle_facts hp).2
    | txGate | txWait | txPut | txEcho => exact (hI.sending_facts (by rw [hp]; rfl)).2
    | rxAssemble | rxPeek => exact (hI.receiving_facts (by rw [hp]; rfl)).2
    | initWake => exact absurd hp h
  exact ⟨hI.params_wf, hI.clock, hI.txbuf_wf, hI.rxbuf_wf, hl.1, hl.2⟩

theorem LineReady.inv_of_idle {s : State} (h : LineReady s) (hp : s.phase = .idle) (hi : s.istep = .notRunning) :
    Inv s :=
  .of_idle h.params_wf h.clock h.txbuf_wf h.rxbuf_wf hp hi h.lineEn h.wakePin

theorem LineReady.inv_of_sending {s : State} (h : LineReady s) (hp : s.phase.sending = true)
    (hi : s.istep = .notRunning ∨ s.istep = .sendStart ∨ s.istep = .sendSession)
    (h0 : s.phase = .txGate ∨ s.phase = .txWait → s.idx = 0)
    (hs : s.txlen = requestLength s.txbuf ∧ s.idx < s.txlen) : Inv s :=
  .of_sending h.params_wf h.clock h.txbuf_wf h.rxbuf_wf hp hi h.lineEn h.wakePin h0 hs

theorem LineReady.inv_of_receiving {s : State} (h : LineReady s) (hp : s.phase.receiving = true)
    (hi : s.istep = .notRunning ∨ s.istep = .recvStart ∨ s.istep = .recvSession)
    (hc : 4 ≤ s.rxcap.toNat ∧ s.rxcap.toNat ≤ bufSize ∧ HeaderAccepted s)
    (ha : s.phase = .rxAssemble → s.idx.toNat ≤ 3 ∨ s.idx < s.total)
    (hf : s.phase = .rxPeek → s.idx = s.total ∧ 4 ≤ s.idx.toNat ∧
      Memory.read s.rxbuf (s.total.toNat - 1) = sum8 s.rxbuf (s.total.toNat - 1)) : Inv s :=
  .of_receiving h.params_wf h.clock h.txbuf_wf h.rxbuf_wf hp hi h.lineEn h.wakePin hc ha hf

/-- A transmission starts within the invariant when TXLEN is the length of the request in TXBUF. -/
theorem LineReady.inv_of_txStart {s : State} (h : LineReady s) (hp : s.phase = .txGate)
    (hi : s.istep = .notRunning ∨ s.istep = .sendStart ∨ s.istep = .sendSession) (h0 : s.idx = 0)
    (hl : s.txlen = requestLength s.txbuf) : Inv s := by
  refine h.inv_of_sending (by rw [hp]; rfl) hi (fun _ => h0) ⟨hl, ?_⟩
  have := requestLength_bounds s.txbuf
  rw [h0, hl, BitVec.lt_def]
  simp
  omega

/-- A reception starts within the invariant when its capacity is 4 to 260. -/
theorem LineReady.inv_of_rxStart {s : State} (h : LineReady s) (hp : s.phase = .rxAssemble)
    (hi : s.istep = .notRunning ∨ s.istep = .recvStart ∨ s.istep = .recvSession) (h0 : s.idx = 0)
    (hc : 4 ≤ s.rxcap.toNat ∧ s.rxcap.toNat ≤ bufSize) : Inv s :=
  h.inv_of_receiving (by rw [hp]; rfl) hi ⟨hc.1, hc.2, .of_idx_zero h0⟩ (fun _ => .inl (by simp [h0]))
    (fun h' => by simp [hp] at h')

theorem LineReady.settle {s : State} (h : LineReady s) (r : OpResult) : LineReady (s.settleLastError r) := by
  obtain ⟨hp, hk, ht, hr, hl, hw⟩ := h
  cases r <;> exact ⟨hp, hk, ht, hr, hl, hw⟩

/-- However an operation ends, the engine is idle or in the next exchange of INITIALIZE, within the invariant. -/
theorem Completion.inv {s t : State} {r : OpResult} (h : LineReady s) (hc : Completion s r t) : Inv t := by
  obtain ⟨hp', hk', ht', hr', hl', hw'⟩ := h.settle r
  obtain ⟨hp, hk, ht, hr, hl, hw⟩ := h
  have hcap : 4 ≤ s.params.initRxCap.toNat ∧ s.params.initRxCap.toNat ≤ bufSize := by
    have := Params.wf_bounds hp
    omega
  cases hc with
  | host hi => exact LineReady.inv_of_idle ⟨hp', hk', ht', hr', hl', hw'⟩ rfl (by simpa using hi)
  | startSent => exact LineReady.inv_of_rxStart ⟨hp, hk, ht, hr, hl, hw⟩ rfl (by simp) rfl hcap
  | startAnswered =>
    exact LineReady.inv_of_txStart ⟨hp, hk, State.wf_loadSessionRequest ht, hr, hl, hw⟩ rfl (by simp) rfl
      (State.requestLength_loadSessionRequest ht).symm
  | sessionSent => exact LineReady.inv_of_rxStart ⟨hp, hk, ht, hr, hl, hw⟩ rfl (by simp) rfl hcap
  | sessionAnswered => exact LineReady.inv_of_idle ⟨hp, hk, ht, hr, hl, hw⟩ rfl rfl
  | failed => exact LineReady.inv_of_idle ⟨hp', hk', ht', hr', hl', hw'⟩ rfl rfl

/-- A byte being received goes into the buffer (44_response_receiver.md R168). -/
theorem Inv.idx_lt_bufSize {s : State} (hI : Inv s) (h : s.phase = .rxAssemble) : s.idx.toNat < bufSize := by
  have := hI.assembling_bounds h
  have := (hI.receiving (by rw [h]; rfl)).2.1
  omega

/-- Storing a received byte keeps everything the invariant asks but the frame's own checks. -/
theorem Inv.lineReady_taken {s : State} (hI : Inv s) (h : s.phase = .rxAssemble) (b : Byte) (rest : List Byte) :
    LineReady (s.taken b rest) := by
  obtain ⟨hp, ⟨hnow, -, hdref⟩, ht, hr, hl, hw⟩ := hI.lineReady (by simp [h])
  exact ⟨hp, ⟨hnow, hnow, hdref⟩, ht, Memory.wf_write (hI.idx_lt_bufSize h) hr, hl, hw⟩

/-- The state handed to `complete` still has the line resumed, whichever check ended the operation. -/
theorem Ending.lineReady {s s1 : State} {r : OpResult} (hI : Inv s) (he : Ending s r s1) : LineReady s1 := by
  have hready (h : s.phase ≠ .initWake) := hI.lineReady h
  cases he with
  | gateMissed h | sent h | echoDiffers _ _ h | silent h =>
    obtain ⟨hp, hk, ht, hr, hl, hw⟩ := hready (by simp [h])
    exact ⟨hp, hk, ht, hr, hl, hw⟩
  | headerRefused b rest _ h | tooLong b rest h | sumDiffers b rest h =>
    obtain ⟨hp, hk, ht, hr, hl, hw⟩ := hI.lineReady_taken h b rest
    exact ⟨hp, hk, ht, hr, hl, hw⟩
  | moreWaiting h | received h => exact hready (by simp [h])

/-- The check that a byte taken at IDX 0, 1 or 2 passed, by the index as a number. -/
theorem State.headerPasses_checks {s : State} {b : Byte} (h : s.headerPasses b) :
    s.idx.toNat ≤ 2 ∧ (s.idx.toNat = 0 → b = s.params.rxFormat) ∧ (s.idx.toNat = 1 → b = s.params.testerAddr) ∧
      (s.idx.toNat = 2 → b = s.params.ecuAddr) := by
  rcases h with ⟨hi, hb⟩ | ⟨hi, hb⟩ | ⟨hi, hb⟩ <;> simp [hi, hb]

/-- The header stays accepted when a byte is taken that passes the check of its index (44_response_receiver.md R162 to
R166). -/
theorem HeaderAccepted.take {s : State} {b : Byte} {rest : List Byte} {total : Count} {p : Phase}
    (h : HeaderAccepted s) (hm : Memory.wf s.rxbuf = true) (hb : s.idx.toNat < bufSize)
    (hc : s.headerPasses b ∨ 3 ≤ s.idx.toNat) (h3 : s.idx.toNat = 3 → total = len9 b ∧ total ≤ s.rxcap)
    (h4 : 4 ≤ s.idx.toNat → total = s.total) :
    HeaderAccepted { s.taken b rest with total := total, idx := s.idx + 1, phase := p } := by
  have hidx : (s.idx + 1).toNat = s.idx.toNat + 1 := by simp only [bufSize] at hb; bv_omega
  have hread (a : Nat) := Memory.read_write hm s.idx.toNat b a
  obtain ⟨c0, c1, c2⟩ : (s.idx.toNat = 0 → b = s.params.rxFormat) ∧ (s.idx.toNat = 1 → b = s.params.testerAddr) ∧
      (s.idx.toNat = 2 → b = s.params.ecuAddr) := by
    rcases hc with hc | hc
    · exact (State.headerPasses_checks hc).2
    · exact ⟨fun _ => by omega, fun _ => by omega, fun _ => by omega⟩
  constructor <;> simp only [State.taken, hidx, hread] <;> intro hi <;> split
  next hz => exact c0 hz.symm
  next => exact h.format (by omega)
  next hz => exact c1 hz.symm
  next => exact h.target (by omega)
  next hz => exact c2 hz.symm
  next => exact h.source (by omega)
  next hz => exact h3 hz.symm
  next =>
    rw [h4 (by omega)]
    exact h.length (by omega)

/-- The last byte read is the checksum of the bytes before it, in the buffer it was stored in (R167). -/
theorem State.taken_sum {s : State} {b : Byte} {rest : List Byte} (hm : Memory.wf s.rxbuf = true)
    (hf : s.idx.toNat + 1 = s.total.toNat) (hs : b = sum8 (s.taken b rest).rxbuf (s.total.toNat - 1)) :
    Memory.read (s.taken b rest).rxbuf (s.total.toNat - 1) = sum8 (s.taken b rest).rxbuf (s.total.toNat - 1) := by
  rw [← hs]
  simp [State.taken, Memory.read_write hm, ← hf]

/-- A move within a transmission keeps the invariant while IDX stays inside the request. -/
theorem Inv.send {s : State} (hI : Inv s) (hs : s.phase.sending = true) {p : Phase} {i : Count} {ref : Time}
    {log : List Byte} (hp : p.sending = true) (href : ref = s.ref ∨ ref = s.now)
    (h0 : p = .txGate ∨ p = .txWait → i = 0) (hi : i < s.txlen) :
    Inv { s with phase := p, idx := i, ref := ref, txlog := log } := by
  obtain ⟨hpar, ⟨hnow, hr, hd⟩, htx, hrx, hl, hw⟩ := hI.lineReady (by rintro h; simp [h, Phase.sending] at hs)
  have hk : ref < 2 ^ s.params.timeWidth := by rcases href with rfl | rfl <;> assumption
  exact LineReady.inv_of_sending ⟨hpar, ⟨hnow, hk, hd⟩, htx, hrx, hl, hw⟩ hp (hI.sending_facts hs).1 h0
    ⟨(hI.sending hs).1, hi⟩

/-- Taking a byte keeps the invariant when the byte passes the check of its index and the next index lies inside the
frame, or the frame is whole and its checksum right (44_response_receiver.md R161 to R168). -/
theorem Inv.take {s : State} (hI : Inv s) (h : s.phase = .rxAssemble) {b : Byte} {rest : List Byte} {total : Count}
    {p : Phase} (hp : p.receiving = true) (hc : s.headerPasses b ∨ 3 ≤ s.idx.toNat)
    (h3 : s.idx.toNat = 3 → total = len9 b ∧ total ≤ s.rxcap) (h4 : 4 ≤ s.idx.toNat → total = s.total)
    (ha : p = .rxAssemble → (s.idx + 1).toNat ≤ 3 ∨ s.idx + 1 < total)
    (hf : p = .rxPeek → s.idx + 1 = total ∧ 4 ≤ (s.idx + 1).toNat ∧
      Memory.read (s.taken b rest).rxbuf (total.toNat - 1) = sum8 (s.taken b rest).rxbuf (total.toNat - 1)) :
    Inv { s.taken b rest with total := total, idx := s.idx + 1, phase := p } := by
  have hs : s.phase.receiving = true := by rw [h]; rfl
  obtain ⟨hcap4, hcap, hhead⟩ := hI.receiving hs
  obtain ⟨hpar, hk, htx, hrx, hl, hw⟩ := hI.lineReady_taken h b rest
  exact LineReady.inv_of_receiving ⟨hpar, hk, htx, hrx, hl, hw⟩ hp (hI.receiving_facts hs).1
    ⟨hcap4, hcap, hhead.take hI.rxbuf_wf (hI.idx_lt_bufSize h) hc h3 h4⟩ ha hf

/-- Every transition of a poll step keeps the invariant. -/
theorem PollTransition.inv {s t : State} (hI : Inv s) (h : PollTransition s t) : Inv t := by
  have hsend {p : Phase} (h : s.phase = p) (hp : p.sending = true) : s.phase.sending = true ∧ s.idx < s.txlen := by
    rw [h]
    exact ⟨hp, (hI.sending (by rw [h]; exact hp)).2⟩
  cases h with
  | stay => exact hI
  | gatePassed h =>
    obtain ⟨hs, hi⟩ := hsend h rfl
    exact hI.send hs rfl (.inl rfl) (fun _ => hI.starting (.inl h)) hi
  | minPassed h =>
    obtain ⟨hs, hi⟩ := hsend h rfl
    exact hI.send hs rfl (.inl rfl) (by simp) hi
  | put h =>
    obtain ⟨hs, hi⟩ := hsend h rfl
    exact hI.send hs rfl (.inr rfl) (by simp) hi
  | nextByte h hx hn =>
    obtain ⟨hs, hi⟩ := hsend h rfl
    exact hI.send hs rfl (.inl rfl) (by simp) (by bv_omega)
  | echoMatched rest h => exact hI.frame rfl rfl rfl rfl rfl rfl rfl rfl rfl rfl rfl hI.clock
  | headerTaken b rest h hq hc =>
    obtain ⟨hi, -⟩ := State.headerPasses_checks hc
    exact hI.take h (p := s.phase) (by rw [h]; rfl) (.inl hc) (by omega) (by omega) (fun _ => .inl (by bv_omega))
      (fun hp => by cases h.symm.trans hp)
  | lengthTaken b rest h hq hi hl =>
    have hlen := len9_toNat b
    exact hI.take h (p := s.phase) (by rw [h]; rfl) (.inr (by simp [hi])) (fun _ => ⟨rfl, by bv_omega⟩) (by simp [hi])
      (fun _ => .inr (by rw [hi]; bv_omega)) (fun hp => by cases h.symm.trans hp)
  | dataTaken b rest h hq hi hb hf =>
    have hlt := (hI.assembling h).resolve_left (by omega)
    exact hI.take h (total := s.total) (p := s.phase) (by rw [h]; rfl) (.inr (by omega)) (by omega) (fun _ => rfl)
      (fun _ => .inr (by bv_omega)) (fun hp => by cases h.symm.trans hp)
  | frameComplete b rest h hq hi hb hf hs =>
    exact hI.take h (total := s.total) rfl (.inr (by omega)) (by omega) (fun _ => rfl) (by simp)
      (fun _ => ⟨by bv_omega, by bv_omega, State.taken_sum hI.rxbuf_wf hf hs⟩)
  | pinLow h hi | pinHigh h hi =>
    obtain ⟨hnow, href, -⟩ := hI.clock
    exact .of_wake hI.params_wf ⟨hnow, href, hnow⟩ hI.txbuf_wf hI.rxbuf_wf h (by simp) (by simpa [h] using hI.line) rfl
  | lineResumed h hi =>
    have hw : s.wakePin = true := by rw [hI.pin, hi]; rfl
    exact LineReady.inv_of_txStart ⟨hI.params_wf, hI.clock, State.wf_loadStartRequest hI.txbuf_wf, hI.rxbuf_wf, rfl, hw⟩
      rfl (.inr (.inl rfl)) rfl (State.requestLength_loadStartRequest hI.txbuf_wf).symm
  | ended r s1 t he hc => exact hc.inv (he.lineReady hI)

/-- The listed moves are no part of the invariant. -/
theorem Inv.withInputs {s : State} (hI : Inv s) (l : List Input) : Inv { s with inputs := l } :=
  hI.frame rfl rfl rfl rfl rfl rfl rfl rfl rfl rfl rfl hI.clock

theorem Inv.gap {s : State} (hI : Inv s) : Inv s.gap :=
  hI.frame rfl rfl rfl rfl rfl rfl rfl rfl rfl rfl rfl ⟨wrapT_lt _ _, hI.clock.2⟩

/-- `rst` gives an idle engine within the invariant, its free times cut to TIME_WIDTH bits and its free buffers
canonical (10_state.md R43). -/
theorem Inv.assertReset {s : State} (hI : Inv s) : Inv s.assertReset := by
  have hclock : ClockFits s.assertReset := by
    simp only [ClockFits, State.assertReset_now, State.assertReset_ref, State.assertReset_dref,
      State.assertReset_params]
    exact ⟨hI.clock.1, wrapT_lt _ _, wrapT_lt _ _⟩
  exact .of_idle (by simp [hI.params_wf]) hclock (by simp [Memory.wf_unspecified]) (by simp [Memory.wf_unspecified])
    (by simp) (by simp) (by simp) (by simp)

/-- A command issued while idle starts within the invariant. -/
theorem CommandEffect.inv {s t : State} {i : Instr} (hI : Inv s) (hp : s.phase = .idle) (h : CommandEffect s i t) :
    Inv t := by
  obtain ⟨hi, hl, hw⟩ := hI.idle_facts hp
  obtain ⟨hnow, href, hdref⟩ := hI.clock
  have hready : LineReady s := hI.lineReady (by simp [hp])
  cases h with
  | twReset => exact hI.frame rfl rfl rfl rfl rfl rfl rfl rfl rfl rfl rfl ⟨hnow, hnow, hdref⟩
  | twElapsed | checksum | isPositive | getLastError =>
    exact hI.frame rfl rfl rfl rfl rfl rfl rfl rfl rfl rfl rfl hI.clock
  | sendRequest =>
    obtain ⟨hp, hk, ht, hr, hl, hw⟩ := hready
    exact LineReady.inv_of_txStart ⟨hp, hk, ht, hr, hl, hw⟩ rfl (.inl hi) rfl rfl
  | receiveResponse cap hc =>
    obtain ⟨hp, hk, ht, hr, hl, hw⟩ := hready
    have hcap : (capacity cap).toNat = cap.toNat := by
      simp only [bufSize] at hc
      unfold capacity
      bv_omega
    exact LineReady.inv_of_rxStart ⟨hp, hk, ht, hr, hl, hw⟩ rfl (.inl hi) rfl (by rw [← hcap] at hc; exact hc)
  | ecuInitialize =>
    exact .of_wake hI.params_wf ⟨hnow, hnow, hnow⟩ hI.txbuf_wf hI.rxbuf_wf rfl (.inl rfl) rfl rfl

/-- Every step that gives a next state keeps the invariant. -/
theorem StepTransition.inv {s t : State} (hI : Inv s) (h : StepTransition s t) : Inv t := by
  cases h with
  | freePoll _ _ hp => exact hp.inv hI.gap
  | poll rest _ _ hp => exact hp.inv (hI.withInputs rest)
  | clock => exact hI.frame rfl rfl rfl rfl rfl rfl rfl rfl rfl rfl rfl ⟨wrapT_lt _ _, hI.clock.2⟩
  | bytesArrive | bytesLost | ignored | hostReads =>
    exact hI.frame rfl rfl rfl rfl rfl rfl rfl rfl rfl rfl rfl hI.clock
  | command _ _ rest _ _ hp _ he => exact he.inv (hI.withInputs rest) hp
  | hostWritesTx _ _ _ _ hp hb =>
    obtain ⟨hi, hl, hw⟩ := hI.idle_facts hp
    exact .of_idle hI.params_wf hI.clock (Memory.wf_write hb hI.txbuf_wf) hI.rxbuf_wf hp hi hl hw
  | hostWritesRx _ _ _ _ hp hb =>
    obtain ⟨hi, hl, hw⟩ := hI.idle_facts hp
    exact .of_idle hI.params_wf hI.clock hI.txbuf_wf (Memory.wf_write hb hI.rxbuf_wf) hp hi hl hw
  | reset rest => exact (hI.withInputs rest).assertReset

/-- Every step of the machine keeps the invariant. -/
theorem Inv.step {s t : State} (hI : Inv s) (h : Machine.step s = .next t) : Inv t := (step_next h).inv hI

/-! ## The rank along a step (70_reset_and_hazards.md R270) -/

/-- `t` waits where `s` does: the same phase and ISTEP, the same place in the frame, the same references and limits. -/
structure SameWait (s t : State) : Prop where
  phase : t.phase = s.phase
  istep : t.istep = s.istep
  idx : t.idx = s.idx
  txlen : t.txlen = s.txlen
  ref : t.ref = s.ref
  dref : t.dref = s.dref
  params : t.params = s.params

theorem SameWait.refl (s : State) : SameWait s s := ⟨rfl, rfl, rfl, rfl, rfl, rfl, rfl⟩

theorem SameWait.trans {s t u : State} (h : SameWait s t) (h' : SameWait t u) : SameWait s u where
  phase := h'.phase.trans h.phase
  istep := h'.istep.trans h.istep
  idx := h'.idx.trans h.idx
  txlen := h'.txlen.trans h.txlen
  ref := h'.ref.trans h.ref
  dref := h'.dref.trans h.dref
  params := h'.params.trans h.params

theorem SameWait.gap (s : State) : SameWait s s.gap := ⟨rfl, rfl, rfl, rfl, rfl, rfl, rfl⟩

theorem SameWait.withInputs (s : State) (l : List Input) : SameWait s { s with inputs := l } :=
  ⟨rfl, rfl, rfl, rfl, rfl, rfl, rfl⟩

theorem SameWait.rank_eq {s t : State} (h : SameWait s t) : t.rank = s.rank := by
  simp only [State.rank, phaseRank, h.phase, h.istep, h.idx, h.txlen]

theorem Inv.rank_of_idle {s : State} (hI : Inv s) (h : s.phase = .idle) : s.rank = 0 := by
  simp [State.rank, phaseRank, h, (hI.idle_facts h).1, stepRank]

theorem Inv.waking_istep {s : State} (hI : Inv s) (h : s.phase = .initWake) :
    s.istep = .wakeIdle ∨ s.istep = .wakeLow ∨ s.istep = .wakeHigh := by
  have hs := hI.sequencing
  simpa [h, legalSequencing, or_assoc] using hs

/-- A busy engine has some way to go. -/
theorem Inv.rank_pos {s : State} (hI : Inv s) (h : s.phase ≠ .idle) : 0 < s.rank := by
  cases hp : s.phase with
  | idle => exact absurd hp h
  | txEcho =>
    have := hI.sending_bounds (by rw [hp]; rfl)
    simp only [State.rank, phaseRank, hp]
    omega
  | initWake =>
    rcases hI.waking_istep hp with hi | hi | hi <;> simp [State.rank, stepRank, hi]
  | txGate | txWait | txPut | rxAssemble | rxPeek =>
    simp only [State.rank, phaseRank, hp]
    omega

/-- An ended operation leaves the engine idle or in a later step of INITIALIZE; the rank counts each step above all that
follow it. -/
theorem Completion.rank_eq_zero_or_lt {s t : State} {r : OpResult} (h : LineReady s) (hc : Completion s r t) :
    t.rank = 0 ∨ t.rank < stepRank s.istep := by
  have ht := hc.inv h
  cases hc with
  | host | sessionAnswered | failed => exact .inl (ht.rank_of_idle rfl)
  | startSent hi | sessionSent hi | startAnswered hi =>
    right
    simp [State.rank, phaseRank, stepRank, hi, bufSize]

theorem Ending.busy {s s1 : State} {r : OpResult} (h : Ending s r s1) : s.phase ≠ .idle := by
  cases h <;> simp [*]

/-- A poll step either finds its wait not over and stays in it, or lowers the rank. -/
theorem PollTransition.sameWait_or_rank_lt {s t : State} (hI : Inv s) (h : PollTransition s t) :
    (SameWait s t ∧ s.waitOver = false) ∨ t.rank < s.rank := by
  cases h with
  | stay hw => exact .inl ⟨.refl s, hw⟩
  | echoMatched rest h hx =>
    exact .inl ⟨⟨rfl, rfl, rfl, rfl, rfl, rfl, rfl⟩, by simpa [State.waitOver, h] using hx⟩
  | gatePassed h | minPassed h | put h =>
    right
    simp only [State.rank, phaseRank, h]
    omega
  | nextByte h =>
    right
    have := hI.sending_bounds (by rw [h]; rfl)
    simp only [State.rank, phaseRank, h]
    bv_omega
  | headerTaken b rest h | lengthTaken b rest h | dataTaken b rest h =>
    right
    have := hI.idx_lt_bufSize h
    simp only [State.rank, phaseRank, State.taken, h, bufSize] at this ⊢
    bv_omega
  | frameComplete b rest h =>
    right
    simp only [State.rank, phaseRank, State.taken, h]
    omega
  | pinLow h hi | pinHigh h hi =>
    right
    simp [State.rank, phaseRank, h, hi, stepRank]
  | lineResumed h hi =>
    right
    simp [State.rank, phaseRank, h, hi, stepRank, resumeLine]
  | ended r s1 t he hc =>
    right
    have hpos := hI.rank_pos he.busy
    have hle : stepRank s1.istep ≤ s.rank := he.istep_eq ▸ Nat.le_add_right _ _
    have := hc.rank_eq_zero_or_lt (he.lineReady hI)
    omega

/-- A step of a busy engine leaves it in the same wait or lowers the rank, `rst` to nothing. -/
theorem StepTransition.sameWait_or_rank_lt {s t : State} (hI : Inv s) (hb : s.phase ≠ .idle) (h : StepTransition s t) :
    SameWait s t ∨ t.rank < s.rank := by
  have ht := h.inv hI
  cases h with
  | freePoll _ _ hp => exact (hp.sameWait_or_rank_lt hI.gap).imp_left fun hw => (SameWait.gap s).trans hw.1
  | poll rest _ _ hp =>
    exact (hp.sameWait_or_rank_lt (hI.withInputs rest)).imp_left fun hw => (SameWait.withInputs s rest).trans hw.1
  | clock | bytesArrive | bytesLost | ignored | hostReads => exact .inl ⟨rfl, rfl, rfl, rfl, rfl, rfl, rfl⟩
  | command _ _ _ _ _ hp | hostWritesTx _ _ _ _ hp | hostWritesRx _ _ _ _ hp => exact absurd hp hb
  | reset =>
    have := hI.rank_pos hb
    rw [ht.rank_of_idle (by simp)]
    exact .inr this

/-! ## A poll step always has a meaning (only a host access is refused, 93_implementation_defined.md U8) -/

theorem raiseError_ne_refused (c : ErrorCode) (s : State) (r : Refusal) : raiseError c s ≠ .refused r :=
  complete_ne_refused

theorem pollTxEcho_ne_refused (s : State) (r : Refusal) : pollTxEcho s ≠ .refused r := by
  unfold pollTxEcho echoWindowOver checkEcho
  repeat' split
  all_goals simp [complete_ne_refused, raiseError_ne_refused]

theorem takeByte_ne_refused (b : Byte) (s : State) (r : Refusal) : takeByte b s ≠ .refused r := by
  unfold takeByte checkByte checkLength checkFinal
  repeat' split
  all_goals simp [raiseError_ne_refused]

theorem pollRxAssemble_ne_refused (s : State) (r : Refusal) : pollRxAssemble s ≠ .refused r := by
  unfold pollRxAssemble
  repeat' split
  all_goals simp [takeByte_ne_refused, raiseError_ne_refused]

theorem pollRxPeek_ne_refused (s : State) (r : Refusal) : pollRxPeek s ≠ .refused r := by
  unfold pollRxPeek
  repeat' split
  all_goals simp [complete_ne_refused]

theorem pollStep_ne_refused (s : State) (r : Refusal) : pollStep s ≠ .refused r := by
  cases hp : s.phase with
  | idle => simp [pollStep_idle hp]
  | txGate =>
    rw [pollStep_txGate hp]
    unfold pollTxGate
    split <;> simp [raiseError_ne_refused]
  | txWait =>
    rw [pollStep_txWait hp]
    unfold pollTxWait
    split <;> simp
  | txPut =>
    rw [pollStep_txPut hp]
    unfold pollTxPut
    split <;> simp
  | txEcho => exact pollStep_txEcho hp ▸ pollTxEcho_ne_refused s r
  | rxAssemble => exact pollStep_rxAssemble hp ▸ pollRxAssemble_ne_refused s r
  | rxPeek => exact pollStep_rxPeek hp ▸ pollRxPeek_ne_refused s r
  | initWake =>
    rw [pollStep_initWake hp]
    unfold pollInitWake
    repeat' split
    all_goals simp

/-! ## Runs (00_scope.md R7, R10) -/

/-- A state whose next step is a poll step takes it in the state `atPoll` names, which waits where it does. -/
theorem State.atPoll_some {s u : State} (hI : Inv s) (h : s.atPoll = some u) :
    step s = pollStep u ∧ SameWait s u ∧ Inv u := by
  unfold State.atPoll at h
  split at h <;> cases h
  case h_1 hin => exact ⟨step_noInput hin, .gap s, hI.gap⟩
  case h_2 rest hin => exact ⟨step_input hin, .withInputs s rest, hI.withInputs rest⟩

theorem Follows.inv {s t : State} (hI : Inv s) (h : Follows s t) : Inv t := by
  cases h with
  | stepped t more h => exact (hI.step h).withInputs _
  | refused r more h => exact hI.withInputs _

/-- A state of a run that follows a busy one is in the same wait or of lower rank. -/
theorem Follows.sameWait_or_rank_lt {s t : State} (hI : Inv s) (hb : s.phase ≠ .idle) (h : Follows s t) :
    SameWait s t ∨ t.rank < s.rank := by
  cases h with
  | stepped t more h => exact ((step_next h).sameWait_or_rank_lt hI hb).imp_left (·.trans (.withInputs t _))
  | refused r more h => exact .inl (.withInputs s _)

/-- A poll step of a run lowers the rank when it finds its wait over. -/
theorem Follows.rank_lt_of_waitOver {s t u : State} (hI : Inv s) (h : Follows s t) (hu : s.atPoll = some u)
    (hw : u.waitOver = true) : t.rank < s.rank := by
  obtain ⟨hstep, hwait, hIu⟩ := State.atPoll_some hI hu
  cases h with
  | stepped t more h =>
    rw [hstep] at h
    have hlt := ((pollStep_next h).sameWait_or_rank_lt hIu).resolve_left fun hs => by simp [hw] at hs
    rwa [hwait.rank_eq] at hlt
  | refused r more h => exact absurd (hstep ▸ h) (pollStep_ne_refused u r)

theorem Run.inv {ρ : Nat → State} (hR : Run ρ) (h0 : Inv (ρ 0)) (n : Nat) : Inv (ρ n) := by
  induction n with
  | zero => exact h0
  | succ n ih => exact (hR n).inv ih

theorem State.exceeds_of_lt {s u : State} {ms : Ms} (h : SameWait s u)
    (hlt : ms.toNat * 1000 < subT u.params.timeWidth u.now s.ref) : u.exceeds ms = true := by
  rw [← h.ref] at hlt
  exact decide_eq_true hlt

theorem State.waited_of_lt {s u : State} {ms : Ms} (h : SameWait s u)
    (hlt : ms.toNat * 1000 < subT u.params.timeWidth u.now s.dref) : u.waited ms = true := by
  rw [← h.dref] at hlt
  exact decide_eq_true hlt.le

/-- Every wait of a busy engine has a reference and a threshold at whose passing it is over, as R10 supposes. -/
theorem Inv.exists_wait_limit {s : State} (hI : Inv s) (hb : s.phase ≠ .idle) :
    ∃ (r : Time) (ms : Ms), ∀ u, SameWait s u → ms.toNat * 1000 < subT u.params.timeWidth u.now r →
      u.waitOver = true := by
  cases hp : s.phase with
  | idle => exact absurd hp hb
  | txGate | txPut => exact ⟨0, 0, fun u hu _ => by simp [State.waitOver, hu.phase, hp]⟩
  | txWait =>
    exact ⟨s.ref, s.params.p3Min, fun u hu h => by
      simp [State.waitOver, hu.phase, hp, hu.params, State.exceeds_of_lt hu h]⟩
  | txEcho =>
    exact ⟨s.ref, s.params.p4Min, fun u hu h => by
      simp [State.waitOver, hu.phase, hp, hu.params, State.exceeds_of_lt hu h]⟩
  | rxAssemble | rxPeek =>
    exact ⟨s.ref, s.params.p2Max, fun u hu h => by
      simp [State.waitOver, hu.phase, hp, hu.params, State.exceeds_of_lt hu h]⟩
  | initWake =>
    rcases hI.waking_istep hp with hi | hi | hi
    · exact ⟨s.dref, s.params.wIdleMs, fun u hu h => by
        simp [State.waitOver, hu.phase, hp, hu.istep, hi, hu.params, State.waited_of_lt hu h]⟩
    · exact ⟨s.dref, s.params.wLowMs, fun u hu h => by
        simp [State.waitOver, hu.phase, hp, hu.istep, hi, hu.params, State.waited_of_lt hu h]⟩
    · exact ⟨s.dref, s.params.wHighMs, fun u hu h => by
        simp [State.waitOver, hu.phase, hp, hu.istep, hi, hu.params, State.waited_of_lt hu h]⟩

/-- Fairness takes a run from a busy state to one of lower rank: otherwise the run would stay in one wait for ever, and
the clock would pass that wait's threshold. -/
theorem Fair.exists_rank_lt {ρ : Nat → State} (hR : Run ρ) (hI : ∀ n, Inv (ρ n)) (hF : Fair ρ) {n : Nat}
    (hb : (ρ n).phase ≠ .idle) : ∃ m, n ≤ m ∧ (ρ m).rank < (ρ n).rank := by
  by_contra hno
  have hge : ∀ m, n ≤ m → (ρ n).rank ≤ (ρ m).rank := by simpa using hno
  have hbusy : ∀ m, n ≤ m → (ρ m).phase ≠ .idle := fun m hm hidle => by
    have := (hI n).rank_pos hb
    have := hge m hm
    have := (hI m).rank_of_idle hidle
    omega
  have hwait : ∀ m, n ≤ m → SameWait (ρ n) (ρ m) := by
    intro m hm
    induction m, hm using Nat.le_induction with
    | base => exact .refl _
    | succ m hm ih =>
      have := hge (m + 1) (by omega)
      rcases (hR m).sameWait_or_rank_lt (hI m) (hbusy m hm) with h | h
      · exact ih.trans h
      · rw [ih.rank_eq] at h
        omega
  obtain ⟨r, ms, hlimit⟩ := (hI n).exists_wait_limit hb
  obtain ⟨m, hm, hidle | ⟨u, hu, hpast⟩⟩ := hF.clock n hb r ms
  · exact hbusy m hm hidle
  · obtain ⟨-, hsame, -⟩ := State.atPoll_some (hI m) hu
    have hover := hlimit u ((hwait m hm).trans hsame) hpast
    have hlt := (hR m).rank_lt_of_waitOver (hI m) hu hover
    rw [(hwait m hm).rank_eq] at hlt
    have := hge (m + 1) (by omega)
    omega

/-- Settles O60, by induction on the rank: from a busy state on, fairness brings a poll step that finds its wait
over. -/
theorem fairRunsEndEveryCommand : Obligations.FairRunsEndEveryCommand := by
  intro ρ hR h0 hF n
  have hI := hR.inv h0
  induction hk : (ρ n).rank using Nat.strong_induction_on generalizing n with
  | _ k ih =>
    subst hk
    by_cases hidle : (ρ n).phase = .idle
    · exact ⟨n, le_rfl, hidle⟩
    · obtain ⟨m, hm, hlt⟩ := hF.exists_rank_lt hR hI hidle
      obtain ⟨l, hl, hend⟩ := ih _ hlt m rfl
      exact ⟨l, hm.trans hl, hend⟩

/-! ## TXLOG (00_scope.md R18, 43_request_transmitter.md R143) -/

theorem Completion.txlog_eq {s t : State} {r : OpResult} (h : Completion s r t) : t.txlog = s.txlog := by
  cases h <;> simp

theorem Ending.txlog_eq {s s1 : State} {r : OpResult} (h : Ending s r s1) : s1.txlog = s.txlog := by cases h <;> rfl

theorem CommandEffect.txlog_eq {s t : State} {i : Instr} (h : CommandEffect s i t) : t.txlog = s.txlog := by
  cases h <;> rfl

/-- A poll step writes to the line only in TX_PUT, and there the byte at IDX. -/
theorem PollTransition.txlog {s t : State} (h : PollTransition s t) :
    t.txlog = s.txlog ∨
      (s.phase = .txPut ∧ t.phase = .txEcho ∧ t.txlog = s.txlog ++ [Memory.read s.txbuf s.idx.toNat]) := by
  cases h with
  | put h => exact .inr ⟨h, rfl, rfl⟩
  | ended r s1 t he hc => exact .inl (hc.txlog_eq.trans he.txlog_eq)
  | stay | gatePassed | minPassed | nextByte | echoMatched | headerTaken | lengthTaken | dataTaken | frameComplete |
    pinLow | pinHigh | lineResumed => exact .inl rfl

/-- Settles O50, by the transitions of a step: TX_PUT's is the only one that appends to TXLOG. -/
theorem transmitLogGainsOnlyTheNextByte : Obligations.TransmitLogGainsOnlyTheNextByte := by
  intro s t h
  cases step_next h with
  | freePoll _ _ hp | poll _ _ _ hp => exact hp.txlog
  | command _ _ _ _ _ _ _ he => exact .inl he.txlog_eq
  | reset => exact .inl (by simp)
  | clock | bytesArrive | bytesLost | ignored | hostWritesTx | hostWritesRx | hostReads => exact .inl rfl

/-! ## The listed moves (00_scope.md R8, R9) -/

theorem lineArrive_enabled {s : State} (bs : List Byte) (h : s.lineEn = true) :
    lineArrive bs s = { s with rxq := s.rxq ++ bs } := if_pos h

theorem lineArrive_suspended {s : State} (bs : List Byte) (h : s.lineEn = false) : lineArrive bs s = s :=
  if_neg (by simp [h])

/-- Settles O6, by the equation of `step` at each kind of move. -/
theorem pollsClockAndLineMovesHappenAsListed : Obligations.PollsClockAndLineMovesHappenAsListed := by
  refine ⟨fun s rest h => step_input h, fun s h => pollStep_idle h, fun s h => step_noInput h,
    fun s d rest h => step_input h, fun s bs rest h => ⟨fun hl => ?_, fun hl => ?_⟩⟩
  · rw [step_input h]
    exact congrArg _ (lineArrive_enabled (s := { s with inputs := rest }) bs hl)
  · rw [step_input h]
    exact congrArg _ (lineArrive_suspended (s := { s with inputs := rest }) bs hl)

/-! ## Endings without an error (00_scope.md R19, 60_exceptions.md R235) -/

/-- Settles O37: `complete` at ISTEP 0 draws one free code, the same whichever way the operation ends. -/
theorem successLeavesTheErrorSlotUnspecified : Obligations.SuccessLeavesTheErrorSlotUnspecified :=
  fun s h => ⟨Config.anyErrorCode s.draws, complete_notRunning .finished h, complete_notRunning .pending h⟩

end Sys2Proof.Machine

/-! # State (10_state.md)

Who may write each element, and what every step keeps: LAST_ERROR (R22), REF (R21), the parameters (R41), the line
outputs (R34), the buffers (R29, R30), the reset (R43), and that TXLOG is never read (R40). The writers are read off the
transitions of a step; what an operation's end leaves alone is said once, for `Ending` and `Completion`. -/

namespace Sys2Proof.Machine

/-- Settles O55: the invariant along a step. -/
theorem everyStepKeepsTheInvariant : Obligations.EveryStepKeepsTheInvariant := fun _ _ hI h => hI.step h

/-! ## What the end of an operation leaves alone (00_scope.md R19, 45_ecu_initializer.md R195) -/

section
variable {s s1 t : State} {r : OpResult}

theorem Completion.params_eq (h : Completion s r t) : t.params = s.params := by cases h <;> simp

theorem Completion.ref_eq (h : Completion s r t) : t.ref = s.ref := by cases h <;> simp

theorem Completion.now_eq (h : Completion s r t) : t.now = s.now := by cases h <;> simp

theorem Completion.rxq_eq (h : Completion s r t) : t.rxq = s.rxq := by cases h <;> simp

theorem Completion.rxbuf_eq (h : Completion s r t) : t.rxbuf = s.rxbuf := by cases h <;> simp

theorem Completion.wakePin_eq (h : Completion s r t) : t.wakePin = s.wakePin := by cases h <;> simp

theorem Completion.lineEn_eq (h : Completion s r t) : t.lineEn = s.lineEn := by cases h <;> simp

theorem Ending.params_eq (h : Ending s r s1) : s1.params = s.params := by cases h <;> rfl

theorem Ending.txbuf_eq (h : Ending s r s1) : s1.txbuf = s.txbuf := by cases h <;> rfl

theorem Ending.wakePin_eq (h : Ending s r s1) : s1.wakePin = s.wakePin := by cases h <;> rfl

theorem Ending.lineEn_eq (h : Ending s r s1) : s1.lineEn = s.lineEn := by cases h <;> rfl

end

/-! ## LAST_ERROR (R22, 60_exceptions.md R229, R235) -/

/-- An ending either ends the command, or is a FINISHED after which INITIALIZE goes on with LAST_ERROR as it was. -/
theorem Completion.idle_or_finished {s t : State} {r : OpResult} (h : Completion s r t) :
    t.phase = .idle ∨ (r = .finished ∧ t.lastError = s.lastError) := by
  cases h with
  | host | sessionAnswered | failed => exact .inl rfl
  | startSent _ hr | startAnswered _ hr | sessionSent _ hr => exact .inr ⟨hr, rfl⟩

theorem Ending.lastError_of_finished {s s1 : State} (h : Ending s .finished s1) : s1.lastError = s.lastError := by
  cases h <;> rfl

theorem PollTransition.lastError {s t : State} (h : PollTransition s t) :
    t.lastError = s.lastError ∨ (s.phase ≠ .idle ∧ t.phase = .idle) := by
  cases h with
  | ended r s1 t he hc =>
    rcases hc.idle_or_finished with hidle | ⟨rfl, hkept⟩
    · exact .inr ⟨he.busy, hidle⟩
    · exact .inl (hkept.trans he.lastError_of_finished)
  | stay | gatePassed | minPassed | put | nextByte | echoMatched | headerTaken | lengthTaken | dataTaken |
    frameComplete | pinLow | pinHigh | lineResumed => exact .inl rfl

theorem CommandEffect.lastError_eq {s t : State} {i : Instr} (h : CommandEffect s i t) :
    t.lastError = s.lastError := by
  cases h <;> rfl

/-- Settles O38, by the transitions of a step: only the end of a command and `rst` write LAST_ERROR. -/
theorem errorSlotChangesOnlyWhenACommandEnds : Obligations.ErrorSlotChangesOnlyWhenACommandEnds := by
  intro s t h
  cases step_next h with
  | freePoll _ _ hp | poll _ _ _ hp => exact hp.lastError.imp_right .inl
  | command _ _ _ _ _ _ _ he => exact .inl he.lastError_eq
  | reset _ hin => exact .inr (.inr (by simp [hin]))
  | clock | bytesArrive | bytesLost | ignored | hostWritesTx | hostWritesRx | hostReads => exact .inl rfl

/-! ## REF (R21, 40_timing_window.md R115) -/

/-- A step reads the oldest byte of RXQ in RX_ASSEMBLE, resets the window and stores the byte at IDX
(44_response_receiver.md R161, R168). -/
structure TakesByte (s t : State) : Prop where
  phase : s.phase = .rxAssemble
  ref : t.ref = t.now
  byte : ∃ b, s.rxq = b :: t.rxq ∧ t.rxbuf = Memory.write s.rxbuf s.idx.toNat b

/-- Taking a byte and checking it: whatever the check does to the other elements, a byte has been taken. -/
theorem TakesByte.of_taken {s t : State} {b : Byte} {rest : List Byte} (h : s.phase = .rxAssemble)
    (hq : s.rxq = b :: rest) (href : t.ref = s.now) (hnow : t.now = s.now) (hrxq : t.rxq = rest)
    (hrx : t.rxbuf = Memory.write s.rxbuf s.idx.toNat b) : TakesByte s t :=
  ⟨h, href.trans hnow.symm, b, by rw [hq, hrxq], hrx⟩

/-- An operation ends with REF and RXBUF as they were, or on the byte just taken. -/
theorem Ending.ref_rxbuf {s s1 : State} {r : OpResult} (h : Ending s r s1) :
    (s1.ref = s.ref ∧ s1.rxbuf = s.rxbuf) ∨ TakesByte s s1 := by
  cases h with
  | headerRefused b rest _ h hq | tooLong b rest h hq | sumDiffers b rest h hq =>
    exact .inr (.of_taken h hq rfl rfl rfl rfl)
  | gateMissed | sent | echoDiffers | silent | moreWaiting | received => exact .inl ⟨rfl, rfl⟩

theorem TakesByte.completed {s s1 t : State} {r : OpResult} (h : TakesByte s s1) (hc : Completion s1 r t) :
    TakesByte s t := by
  obtain ⟨hp, href, b, hq, hb⟩ := h
  exact ⟨hp, by rw [hc.ref_eq, hc.now_eq, href], b, by rw [hc.rxq_eq, hq], by rw [hc.rxbuf_eq, hb]⟩

/-- A poll step writes REF in TX_PUT, and REF and RXBUF where it takes a byte. -/
theorem PollTransition.ref_rxbuf {s t : State} (h : PollTransition s t) :
    (t.ref = s.ref ∧ t.rxbuf = s.rxbuf) ∨
    (s.phase = .txPut ∧ t.phase = .txEcho ∧ t.ref = t.now ∧ t.rxbuf = s.rxbuf) ∨ TakesByte s t := by
  cases h with
  | put h => exact .inr (.inl ⟨h, rfl, rfl, rfl⟩)
  | headerTaken b rest h hq | lengthTaken b rest h hq | dataTaken b rest h hq | frameComplete b rest h hq =>
    exact .inr (.inr (.of_taken h hq rfl rfl rfl rfl))
  | ended r s1 t he hc =>
    rcases he.ref_rxbuf with ⟨href, hrx⟩ | htake
    · exact .inl ⟨hc.ref_eq.trans href, hc.rxbuf_eq.trans hrx⟩
    · exact .inr (.inr (htake.completed hc))
  | stay | gatePassed | minPassed | nextByte | echoMatched | pinLow | pinHigh | lineResumed => exact .inl ⟨rfl, rfl⟩

theorem PollTransition.ref {s t : State} (h : PollTransition s t) :
    t.ref = s.ref ∨ (t.ref = t.now ∧
      ((s.phase = .txPut ∧ t.phase = .txEcho) ∨ (s.phase = .rxAssemble ∧ ∃ b, s.rxq = b :: t.rxq))) := by
  rcases h.ref_rxbuf with ⟨href, -⟩ | ⟨hp, ht, href, -⟩ | ⟨hp, href, b, hq, -⟩
  · exact .inl href
  · exact .inr ⟨href, .inl ⟨hp, ht⟩⟩
  · exact .inr ⟨href, .inr ⟨hp, b, hq⟩⟩

theorem CommandEffect.ref {s t : State} {i : Instr} (h : CommandEffect s i t) :
    t.ref = s.ref ∨ (t.ref = t.now ∧ (i = .twReset ∨ i = .ecuInitialize)) := by
  cases h with
  | twReset => exact .inr ⟨rfl, .inl rfl⟩
  | ecuInitialize => exact .inr ⟨rfl, .inr rfl⟩
  | twElapsed | checksum | isPositive | sendRequest | receiveResponse | getLastError => exact .inl rfl

/-- Settles O47, by the transitions of a step: TX_PUT, a byte taken, TW_RESET, INITIALIZE and `rst` write REF. -/
theorem referenceIsWrittenOnlyByFourEvents : Obligations.ReferenceIsWrittenOnlyByFourEvents := by
  intro s t h
  cases step_next h with
  | freePoll _ _ hp | poll _ _ _ hp => exact hp.ref.imp_right fun ⟨href, hevent⟩ => .inr ⟨href, .inr hevent⟩
  | command w i _ _ hin hp hd he =>
    refine he.ref.imp_right fun ⟨href, hi⟩ => .inr ⟨href, .inl ⟨hp, w, by simp [hin], ?_⟩⟩
    rcases hi with rfl | rfl
    · exact .inl hd
    · exact .inr hd
  | reset _ hin => exact .inr (.inl (by simp [hin]))
  | clock | bytesArrive | bytesLost | ignored | hostWritesTx | hostWritesRx | hostReads => exact .inl rfl

/-! ## The parameters (R41) -/

theorem PollTransition.params_eq {s t : State} (h : PollTransition s t) : t.params = s.params := by
  cases h with
  | ended r s1 t he hc => exact hc.params_eq.trans he.params_eq
  | stay | gatePassed | minPassed | put | nextByte | echoMatched | headerTaken | lengthTaken | dataTaken |
    frameComplete | pinLow | pinHigh | lineResumed => rfl

theorem CommandEffect.params_eq {s t : State} {i : Instr} (h : CommandEffect s i t) : t.params = s.params := by
  cases h <;> rfl

/-- Settles O48, by the transitions of a step: none writes the parameter record. -/
theorem parametersAreFixedForARun : Obligations.ParametersAreFixedForARun := by
  intro s t h
  cases step_next h with
  | freePoll _ _ hp | poll _ _ _ hp => exact hp.params_eq
  | command _ _ _ _ _ _ _ he => exact he.params_eq
  | reset => simp
  | clock | bytesArrive | bytesLost | ignored | hostWritesTx | hostWritesRx | hostReads => rfl

/-! ## WAKE_PIN and LINE_EN (R34) -/

theorem PollTransition.lineOutputs {s t : State} (h : PollTransition s t) :
    (t.wakePin = s.wakePin ∧ t.lineEn = s.lineEn) ∨ s.phase = .initWake := by
  cases h with
  | pinLow h | pinHigh h | lineResumed h => exact .inr h
  | ended r s1 t he hc => exact .inl ⟨hc.wakePin_eq.trans he.wakePin_eq, hc.lineEn_eq.trans he.lineEn_eq⟩
  | stay | gatePassed | minPassed | put | nextByte | echoMatched | headerTaken | lengthTaken | dataTaken |
    frameComplete => exact .inl ⟨rfl, rfl⟩

theorem CommandEffect.lineOutputs {s t : State} {i : Instr} (h : CommandEffect s i t) :
    (t.wakePin = s.wakePin ∧ t.lineEn = s.lineEn) ∨ t.phase = .initWake := by
  cases h with
  | ecuInitialize => exact .inr rfl
  | twReset | twElapsed | checksum | isPositive | sendRequest | receiveResponse | getLastError =>
    exact .inl ⟨rfl, rfl⟩

/-- Settles O49, by the transitions of a step: the wake-up phase, the command that starts it, and `rst`. -/
theorem lineOutputsChangeOnlyInWakeUp : Obligations.LineOutputsChangeOnlyInWakeUp := by
  intro s t h
  cases step_next h with
  | freePoll _ _ hp | poll _ _ _ hp => exact hp.lineOutputs.imp_right .inl
  | command _ _ _ _ _ hp _ he => exact he.lineOutputs.imp_right fun ht => .inr (.inl ⟨hp, ht⟩)
  | reset _ hin => exact .inr (.inr (.inr (by simp [hin])))
  | clock | bytesArrive | bytesLost | ignored | hostWritesTx | hostWritesRx | hostReads => exact .inl ⟨rfl, rfl⟩

/-! ## The buffers (R29, R30) -/

theorem PollTransition.rxbuf {s t : State} (h : PollTransition s t) : t.rxbuf = s.rxbuf ∨ TakesByte s t := by
  rcases h.ref_rxbuf with ⟨-, hrx⟩ | ⟨-, -, -, hrx⟩ | htake
  · exact .inl hrx
  · exact .inl hrx
  · exact .inr htake

theorem Completion.txbuf {s t : State} {r : OpResult} (h : Completion s r t) :
    t.txbuf = s.txbuf ∨ (s.istep = .recvStart ∧ t.istep = .sendSession) := by
  cases h with
  | startAnswered hi => exact .inr ⟨hi, rfl⟩
  | host | startSent | sessionSent | sessionAnswered | failed => exact .inl (by simp)

/-- A poll step writes TXBUF only where INITIALIZE loads one of its two requests (45_ecu_initializer.md R194, R196). -/
theorem PollTransition.txbuf {s t : State} (h : PollTransition s t) :
    t.txbuf = s.txbuf ∨ (s.istep = .wakeHigh ∧ t.istep = .sendStart) ∨
      (s.istep = .recvStart ∧ t.istep = .sendSession) := by
  cases h with
  | lineResumed _ hi => exact .inr (.inl ⟨hi, rfl⟩)
  | ended r s1 t he hc =>
    rcases hc.txbuf with htx | hload
    · exact .inl (htx.trans he.txbuf_eq)
    · exact .inr (.inr (he.istep_eq ▸ hload))
  | stay | gatePassed | minPassed | put | nextByte | echoMatched | headerTaken | lengthTaken | dataTaken |
    frameComplete | pinLow | pinHigh => exact .inl rfl

theorem CommandEffect.buffers_eq {s t : State} {i : Instr} (h : CommandEffect s i t) :
    t.rxbuf = s.rxbuf ∧ t.txbuf = s.txbuf := by
  cases h <;> exact ⟨rfl, rfl⟩

/-- Settles O52, by the transitions of a step: for each, the writer of either buffer or that it is as it was. -/
theorem buffersHaveTheirNamedWriters : Obligations.BuffersHaveTheirNamedWriters := by
  intro s t h
  cases step_next h with
  | freePoll _ _ hp | poll _ _ _ hp =>
    refine ⟨hp.rxbuf.imp_right fun htake => ?_, hp.txbuf.imp_right fun hload => ?_⟩
    · exact .inr (.inl ⟨htake.phase, htake.byte⟩)
    · exact .inr (hload.imp_right .inl)
  | command _ _ _ _ _ _ _ he => exact he.buffers_eq.imp .inl .inl
  | hostWritesTx i b _ hin hp hi =>
    exact ⟨.inl rfl, .inr (.inr (.inr (.inr ⟨hp, i, b, hi, by simp [hin], rfl⟩)))⟩
  | hostWritesRx i b _ hin hp hi => exact ⟨.inr (.inr (.inr ⟨hp, i, b, hi, by simp [hin], rfl⟩)), .inl rfl⟩
  | reset _ hin =>
    have hrst : s.inputs.head? = some .rst := by simp [hin]
    exact ⟨.inr (.inl hrst), .inr (.inl hrst)⟩
  | clock | bytesArrive | bytesLost | ignored | hostReads => exact ⟨.inl rfl, .inl rfl⟩

/-! ## Reset (R43, 70_reset_and_hazards.md R250) -/

/-- Settles O59, by the values of the reset state. -/
theorem resetStateValues : Obligations.ResetStateValues := ⟨rfl, rfl, rfl, rfl, rfl, rfl, rfl, rfl⟩

/-- An engine that has sent nothing of a command and runs no INITIALIZE asks nothing of TXLOG. -/
theorem SentSoFar.of_notRunning {s : State} (hn : s.sentCount = 0) (hi : s.istep = .notRunning) : SentSoFar s where
  current := by simp [hn]
  first_loaded h := by simp [hi] at h
  first_sent h := by simp [hi] at h
  second_loaded h := by simp [hi] at h
  second_current h := by simp [hi] at h
  both_sent h := by simp [hi] at h

/-- Settles O54: the reset state is idle, its buffers empty and its parameters the defaults. -/
theorem resetMeetsTheInvariant : Obligations.ResetMeetsTheInvariant := by
  have hclock : ClockFits State.reset := ⟨Nat.two_pow_pos _, Nat.two_pow_pos _, Nat.two_pow_pos _⟩
  exact ⟨.of_idle (by decide) hclock rfl rfl rfl rfl rfl rfl, .of_notRunning rfl rfl⟩

/-- Settles O58, by the equation of the step that takes `rst` and the values `assertReset` gives. -/
theorem resetEventAbandonsTheCommand : Obligations.ResetEventAbandonsTheCommand := by
  intro s rest hin
  have hstep : step s = .next (State.assertReset { s with inputs := rest }) := step_input hin
  refine ⟨_, hstep, ?_⟩
  simp

/-! ## TXLOG is never read (R40) -/

/-- The same engine with a longer past: more bytes at the front of TXLOG. -/
def State.withPast (past : List Byte) (s : State) : State := { s with txlog := past ++ s.txlog }

section
variable (past : List Byte) (s : State)

@[simp] theorem State.withPast_phase : (s.withPast past).phase = s.phase := rfl
@[simp] theorem State.withPast_istep : (s.withPast past).istep = s.istep := rfl

theorem State.settleLastError_withPast (r : OpResult) :
    (s.withPast past).settleLastError r = (s.settleLastError r).withPast past := by
  cases r <;> rfl

theorem State.lineWrite_withPast (b : Byte) : (s.withPast past).lineWrite b = (s.lineWrite b).withPast past := by
  simp [State.lineWrite, State.withPast]

theorem complete_withPast (r : OpResult) :
    complete r (s.withPast past) = onNext (State.withPast past) (complete r s) := by
  unfold complete
  simp only [State.withPast_istep, State.settleLastError_withPast]
  split
  case h_1 | h_2 | h_3 | h_4 => rfl
  all_goals
    rw [apply_ite (onNext _)]
    rfl

theorem raiseError_withPast (c : ErrorCode) :
    raiseError c (s.withPast past) = onNext (State.withPast past) (raiseError c s) :=
  complete_withPast past { s with lastError := c } (.error c)

theorem pollTxGate_withPast : pollTxGate (s.withPast past) = onNext (State.withPast past) (pollTxGate s) := by
  unfold pollTxGate
  rw [apply_ite (onNext _), ← raiseError_withPast]
  rfl

theorem pollTxWait_withPast : pollTxWait (s.withPast past) = onNext (State.withPast past) (pollTxWait s) := by
  unfold pollTxWait
  rw [apply_ite (onNext _)]
  rfl

theorem pollTxPut_withPast : pollTxPut (s.withPast past) = onNext (State.withPast past) (pollTxPut s) := by
  unfold pollTxPut
  rw [apply_ite (onNext _), State.lineWrite_withPast]
  rfl

theorem echoWindowOver_withPast :
    echoWindowOver (s.withPast past) = onNext (State.withPast past) (echoWindowOver s) := by
  unfold echoWindowOver
  rw [apply_ite (onNext _), ← complete_withPast]
  rfl

theorem checkEcho_withPast (e : Byte) :
    checkEcho e (s.withPast past) = onNext (State.withPast past) (checkEcho e s) := by
  unfold checkEcho
  simp only [apply_ite (onNext _), ← raiseError_withPast]
  rfl

theorem pollTxEcho_withPast : pollTxEcho (s.withPast past) = onNext (State.withPast past) (pollTxEcho s) := by
  unfold pollTxEcho
  rw [apply_ite (onNext _), ← echoWindowOver_withPast]
  rcases hq : s.rxq with _ | ⟨e, rest⟩
  · rw [State.lineRead_of_nil hq, State.lineRead_of_nil (s := s.withPast past) hq]
    rfl
  · rw [State.lineRead_of_cons hq, State.lineRead_of_cons (s := s.withPast past) hq]
    exact congrArg _ (checkEcho_withPast past { s with rxq := rest } e)

theorem checkLength_withPast (b : Byte) :
    checkLength b (s.withPast past) = onNext (State.withPast past) (checkLength b s) := by
  unfold checkLength
  rw [apply_ite (onNext _), ← raiseError_withPast]
  rfl

theorem checkFinal_withPast (b : Byte) :
    checkFinal b (s.withPast past) = onNext (State.withPast past) (checkFinal b s) := by
  unfold checkFinal
  rw [apply_ite (onNext _), ← raiseError_withPast]
  rfl

theorem checkByte_withPast (b : Byte) :
    checkByte b (s.withPast past) = onNext (State.withPast past) (checkByte b s) := by
  unfold checkByte
  simp only [apply_ite (onNext _), ← raiseError_withPast, ← checkLength_withPast, ← checkFinal_withPast]
  rfl

theorem takeByte_withPast (b : Byte) :
    takeByte b (s.withPast past) = onNext (State.withPast past) (takeByte b s) := by
  unfold takeByte
  rw [apply_ite (onNext _), ← checkByte_withPast]
  rfl

theorem pollRxAssemble_withPast :
    pollRxAssemble (s.withPast past) = onNext (State.withPast past) (pollRxAssemble s) := by
  unfold pollRxAssemble
  rcases hq : s.rxq with _ | ⟨b, rest⟩
  · rw [State.lineRead_of_nil hq, State.lineRead_of_nil (s := s.withPast past) hq]
    dsimp only
    rw [apply_ite (onNext _), ← raiseError_withPast]
    rfl
  · rw [State.lineRead_of_cons hq, State.lineRead_of_cons (s := s.withPast past) hq]
    exact takeByte_withPast past { s with rxq := rest } b

theorem pollRxPeek_withPast : pollRxPeek (s.withPast past) = onNext (State.withPast past) (pollRxPeek s) := by
  unfold pollRxPeek
  simp only [apply_ite (onNext _), ← complete_withPast]
  rfl

theorem pollInitWake_withPast :
    pollInitWake (s.withPast past) = onNext (State.withPast past) (pollInitWake s) := by
  unfold pollInitWake
  rw [State.withPast_istep]
  split
  case h_1 | h_2 | h_3 =>
    rw [apply_ite (onNext _)]
    rfl
  all_goals rfl

theorem pollStep_withPast : pollStep (s.withPast past) = onNext (State.withPast past) (pollStep s) := by
  unfold pollStep
  rw [State.withPast_phase]
  cases s.phase with
  | idle => rfl
  | txGate => exact pollTxGate_withPast past s
  | txWait => exact pollTxWait_withPast past s
  | txPut => exact pollTxPut_withPast past s
  | txEcho => exact pollTxEcho_withPast past s
  | rxAssemble => exact pollRxAssemble_withPast past s
  | rxPeek => exact pollRxPeek_withPast past s
  | initWake => exact pollInitWake_withPast past s

theorem exec_withPast (i : Instr) : exec i (s.withPast past) = onNext (State.withPast past) (exec i s) := by
  cases i with
  | checksum buf len =>
    change execChecksum buf len _ = onNext _ (execChecksum buf len s)
    unfold execChecksum
    rw [apply_ite (onNext _)]
    cases buf <;> rfl
  | receiveResponse cap =>
    change execReceiveResponse cap _ = onNext _ (execReceiveResponse cap s)
    unfold execReceiveResponse
    rw [apply_ite (onNext _)]
    rfl
  | twReset | twElapsed | isPositive | sendRequest | getLastError | ecuInitialize => rfl

theorem issueCommand_withPast (w : Word) :
    issueCommand w (s.withPast past) = onNext (State.withPast past) (issueCommand w s) := by
  unfold issueCommand
  rw [apply_ite (onNext _)]
  cases decode w with
  | ok i => exact congrArg _ (exec_withPast past s i)
  | error r => rfl

theorem hostWriteWord_withPast (a : Nat) (w : Word) :
    hostWriteWord a w (s.withPast past) = onNext (State.withPast past) (hostWriteWord a w s) := by
  unfold hostWriteWord
  cases hostTarget a with
  | cmd => exact issueCommand_withPast past s w
  | status | result | tx | rx | reserved => rfl

theorem hostWriteByte_withPast (a : Nat) (b : Byte) :
    hostWriteByte a b (s.withPast past) = onNext (State.withPast past) (hostWriteByte a b s) := by
  unfold hostWriteByte
  cases hostTarget a with
  | tx | rx =>
    dsimp only
    rw [apply_ite (onNext _)]
    rfl
  | cmd | status | result | reserved => rfl

theorem readBuffer_withPast (m : Memory) (i : Nat) :
    readBuffer m i (s.withPast past) = onNext (State.withPast past) (readBuffer m i s) := by
  unfold readBuffer
  rw [apply_ite (onNext _)]
  rfl

theorem hostReadByte_withPast (a : Nat) :
    hostReadByte a (s.withPast past) = onNext (State.withPast past) (hostReadByte a s) := by
  unfold hostReadByte
  cases hostTarget a with
  | tx i => exact readBuffer_withPast past s s.txbuf i
  | rx i => exact readBuffer_withPast past s s.rxbuf i
  | cmd | status | result | reserved => rfl

theorem lineArrive_withPast (bs : List Byte) : lineArrive bs (s.withPast past) = (lineArrive bs s).withPast past := by
  unfold lineArrive
  rw [apply_ite (State.withPast past)]
  rfl

theorem applyInput_withPast (m : Input) :
    applyInput m (s.withPast past) = onNext (State.withPast past) (applyInput m s) := by
  cases m with
  | poll => exact pollStep_withPast past s
  | arrive bs => exact congrArg Host.Outcome.next (lineArrive_withPast past s bs)
  | writeWord a w => exact hostWriteWord_withPast past s a w
  | writeByte a b => exact hostWriteByte_withPast past s a b
  | readByte a => exact hostReadByte_withPast past s a
  | advance | readWord | rst => rfl

end

/-- Settles O53: every poll step and every listed move commutes with a longer past. -/
theorem transmitLogIsNeverRead : Obligations.TransmitLogIsNeverRead := by
  intro s past
  change step (s.withPast past) = onNext (State.withPast past) (step s)
  cases hin : s.inputs with
  | nil =>
    rw [step_noInput hin, step_noInput (s := s.withPast past) hin]
    exact pollStep_withPast past s.gap
  | cons m rest =>
    rw [step_input hin, step_input (s := s.withPast past) hin]
    exact applyInput_withPast past { s with inputs := rest } m

end Sys2Proof.Machine

/-! # Memory (20_memory.md)

What TXLOG holds of the running command (R60), the two ends of RXQ (R58, R61), and the host port: commands (R63), the
buffers (R51, R66) and every access the register map does not give a meaning (R54, R55, R69). -/

namespace Sys2Proof.Machine

/-! ## What has been sent so far (R60, 45_ecu_initializer.md R197) -/

theorem State.sentCount_txPut {s : State} (h : s.phase = .txPut) : s.sentCount = s.idx.toNat := by
  simp [State.sentCount, h]

theorem State.sentCount_txEcho {s : State} (h : s.phase = .txEcho) : s.sentCount = s.idx.toNat + 1 := by
  simp [State.sentCount, h]

/-- Only TX_PUT and TX_ECHO find bytes of the request already written. -/
theorem State.sentCount_eq_zero {s : State} (hp : s.phase ≠ .txPut) (he : s.phase ≠ .txEcho) : s.sentCount = 0 := by
  cases h : s.phase <;> simp [State.sentCount, h] at hp he ⊢

/-- `SentSoFar` speaks of five fields and the count of bytes sent. -/
theorem SentSoFar.frame {s t : State} (h : SentSoFar s) (hn : t.sentCount = s.sentCount) (h1 : t.txbuf = s.txbuf)
    (h2 : t.txlog = s.txlog) (h3 : t.istep = s.istep) (h4 : t.txlen = s.txlen) (h5 : t.params = s.params) :
    SentSoFar t := by
  obtain ⟨hcur, hload1, hsent1, hload2, hcur2, hboth⟩ := h
  constructor <;> simpa only [hn, h1, h2, h3, h4, h5]

/-- The wake-up pattern has sent nothing and loaded nothing. -/
theorem SentSoFar.of_waking {s : State} (hn : s.sentCount = 0)
    (hi : s.istep = .wakeIdle ∨ s.istep = .wakeLow ∨ s.istep = .wakeHigh) : SentSoFar s := by
  constructor <;> rcases hi with hi | hi | hi <;> simp [hn, hi]

/-- TX_PUT writes the byte that the count of bytes sent then takes in. -/
theorem SentSoFar.put {s : State} (hS : SentSoFar s) (hI : Inv s) (h : s.phase = .txPut) :
    SentSoFar { s with txlog := s.txlog ++ [s.txByte], ref := s.now, phase := .txEcho } := by
  obtain ⟨hi, -⟩ := hI.sending_facts (by rw [h]; rfl)
  have hsent : Memory.bytes s.txbuf (s.idx.toNat + 1) = Memory.bytes s.txbuf s.sentCount ++ [s.txByte] := by
    rw [Memory.bytes_succ, State.sentCount_txPut h]
    rfl
  exact {
    current := by
      change Memory.bytes s.txbuf (s.idx.toNat + 1) <:+ _
      rw [hsent]
      exact List.suffix_append_self_iff.2 hS.current
    first_loaded := hS.first_loaded
    first_sent := fun h' => by simp [show s.istep = .recvStart from h'] at hi
    second_loaded := hS.second_loaded
    second_current := fun h' => by
      change startRequest s.params ++ Memory.bytes s.txbuf (s.idx.toNat + 1) <:+ _
      rw [hsent, ← List.append_assoc]
      exact List.suffix_append_self_iff.2 (hS.second_current h')
    both_sent := fun h' => by simp [show s.istep = .recvSession from h'] at hi }

/-- An operation that ends FINISHED is a transmission whose last byte is out, or a reception. -/
theorem Ending.of_finished {s s1 : State} (h : Ending s .finished s1) :
    (s.phase = .txEcho ∧ s.idx + 1 = s.txlen ∧ s1 = s.nextIdx) ∨ (s.phase = .rxPeek ∧ s1 = s) := by
  cases h with
  | sent h _ hl => exact .inl ⟨h, hl, rfl⟩
  | received h => exact .inr ⟨h, rfl⟩

/-- In a sending step of INITIALIZE it is the transmission that ends FINISHED, its whole request written. -/
theorem Ending.finished_sending {s s1 : State} (hI : Inv s) (h : Ending s .finished s1)
    (hi : s.istep = .sendStart ∨ s.istep = .sendSession) : s1 = s.nextIdx ∧ s.sentCount = s.txlen.toNat := by
  rcases h.of_finished with ⟨hp, hl, rfl⟩ | ⟨hp, -⟩
  · have := hI.sending_bounds (by rw [hp]; rfl)
    exact ⟨rfl, by rw [State.sentCount_txEcho hp]; bv_omega⟩
  · obtain ⟨hr, -⟩ := hI.receiving_facts (by rw [hp]; rfl)
    rcases hi with hi | hi <;> simp [hi] at hr

/-- In a receiving step of INITIALIZE it is the reception. -/
theorem Ending.finished_receiving {s s1 : State} (hI : Inv s) (h : Ending s .finished s1) (hi : s.istep = .recvStart) :
    s1 = s := by
  rcases h.of_finished with ⟨hp, -, -⟩ | ⟨-, hs⟩
  · obtain ⟨hr, -⟩ := hI.sending_facts (by rw [hp]; rfl)
    simp [hi] at hr
  · exact hs

/-- The end of an operation: of the command, or of one exchange of INITIALIZE, whose request is then whole at the end of
TXLOG (45_ecu_initializer.md R195, R197). -/
theorem SentSoFar.ended {s s1 t : State} {r : OpResult} (hS : SentSoFar s) (hI : Inv s) (he : Ending s r s1)
    (hc : Completion s1 r t) : SentSoFar t := by
  cases hc with
  | host hi => exact .of_notRunning rfl (by simpa using hi)
  | sessionAnswered | failed => exact .of_notRunning rfl rfl
  | startSent hi hr =>
    subst hr
    rw [he.istep_eq] at hi
    obtain ⟨rfl, hn⟩ := he.finished_sending hI (.inl hi)
    obtain ⟨hlen, hreq⟩ := hS.first_loaded (.inl hi)
    have hcur := hS.current
    rw [hn, hlen] at hcur
    exact {
      current := List.nil_suffix
      first_loaded := fun _ => ⟨hlen, hreq⟩
      first_sent := fun _ => hreq ▸ hcur
      second_loaded := by simp
      second_current := by simp
      both_sent := by simp }
  | startAnswered hi hr =>
    subst hr
    rw [he.istep_eq] at hi
    obtain rfl := he.finished_receiving hI hi
    exact {
      current := List.nil_suffix
      first_loaded := by simp
      first_sent := by simp
      second_loaded := fun _ => ⟨rfl, State.bytes_loadSessionRequest hI.txbuf_wf⟩
      second_current := fun _ => by simpa [State.sentCount] using hS.first_sent hi
      both_sent := by simp }
  | sessionSent hi hr =>
    subst hr
    rw [he.istep_eq] at hi
    obtain ⟨rfl, hn⟩ := he.finished_sending hI (.inr hi)
    obtain ⟨hlen, hreq⟩ := hS.second_loaded (.inl hi)
    have hcur := hS.second_current hi
    rw [hn, hlen] at hcur
    exact {
      current := List.nil_suffix
      first_loaded := by simp
      first_sent := by simp
      second_loaded := fun _ => ⟨hlen, hreq⟩
      second_current := by simp
      both_sent := fun _ => hreq ▸ hcur }

/-- The first request is loaded as the line is resumed, none of it sent yet (45_ecu_initializer.md R194). -/
theorem SentSoFar.of_resumeLine {s : State} (hI : Inv s) : SentSoFar (resumeLine s) where
  current := List.nil_suffix
  first_loaded _ := ⟨rfl, State.bytes_loadStartRequest (s := { s with lineEn := true, rxq := [] }) hI.txbuf_wf⟩
  first_sent h := by cases h
  second_loaded h := by simp [resumeLine] at h
  second_current h := by cases h
  both_sent h := by cases h

/-- Every transition of a poll step keeps what TXLOG holds of the running command. -/
theorem PollTransition.sentSoFar {s t : State} (hI : Inv s) (hS : SentSoFar s) (h : PollTransition s t) :
    SentSoFar t := by
  cases h with
  | stay => exact hS
  | gatePassed h => exact hS.frame (by simp [State.sentCount, h]) rfl rfl rfl rfl rfl
  | minPassed h =>
    exact hS.frame (by simp [State.sentCount, h, hI.starting (.inr h)]) rfl rfl rfl rfl rfl
  | put h => exact hS.put hI h
  | nextByte h =>
    have hb := hI.sending_bounds (by rw [h]; rfl)
    refine hS.frame ?_ rfl rfl rfl rfl rfl
    rw [State.sentCount_txPut rfl, State.sentCount_txEcho h]
    bv_omega
  | echoMatched => exact hS.frame rfl rfl rfl rfl rfl rfl
  | headerTaken _ _ h | lengthTaken _ _ h | dataTaken _ _ h | frameComplete _ _ h =>
    exact hS.frame (by simp [State.sentCount, State.taken, h]) rfl rfl rfl rfl rfl
  | pinLow h | pinHigh h => exact .of_waking (by simp [State.sentCount, h]) (by simp)
  | lineResumed => exact .of_resumeLine hI
  | ended r s1 t he hc => exact hS.ended hI he hc

/-- A command issued while idle has sent nothing yet. -/
theorem CommandEffect.sentSoFar {s t : State} {i : Instr} (hI : Inv s) (hp : s.phase = .idle)
    (h : CommandEffect s i t) : SentSoFar t := by
  have hi := (hI.idle_facts hp).1
  have h0 : s.sentCount = 0 := State.sentCount_eq_zero (by simp [hp]) (by simp [hp])
  cases h with
  | twReset | twElapsed | checksum | isPositive | getLastError => exact .of_notRunning h0 hi
  | sendRequest | receiveResponse => exact .of_notRunning rfl hi
  | ecuInitialize => exact .of_waking rfl (.inl rfl)

/-- Settles O24, by the transitions of a step: TX_PUT's byte is the next of the request, and an exchange of INITIALIZE
goes on only with its request whole. -/
theorem everyStepKeepsSentSoFar : Obligations.EveryStepKeepsSentSoFar := by
  intro s t hI hS h
  cases step_next h with
  | freePoll _ _ hp => exact hp.sentSoFar hI.gap (hS.frame rfl rfl rfl rfl rfl rfl)
  | poll rest _ _ hp => exact hp.sentSoFar (hI.withInputs rest) (hS.frame rfl rfl rfl rfl rfl rfl)
  | command _ _ rest _ _ hp _ he => exact he.sentSoFar (hI.withInputs rest) hp
  | hostWritesTx _ _ _ _ hp =>
    exact .of_notRunning (State.sentCount_eq_zero (by simp [hp]) (by simp [hp])) (hI.idle_facts hp).1
  | reset => exact .of_notRunning (State.sentCount_eq_zero (by simp) (by simp)) (by simp)
  | clock | bytesArrive | bytesLost | ignored | hostWritesRx | hostReads => exact hS.frame rfl rfl rfl rfl rfl rfl

/-! ## RXQ (R58, R61, R258) -/

/-- LineRead takes the oldest byte of RXQ, in TX_ECHO or in RX_ASSEMBLE (R58). -/
def ReadsLine (s t : State) : Prop := (s.phase = .txEcho ∨ s.phase = .rxAssemble) ∧ ∃ b, s.rxq = b :: t.rxq

theorem Ending.rxq {s s1 : State} {r : OpResult} (h : Ending s r s1) : s1.rxq = s.rxq ∨ ReadsLine s s1 := by
  cases h with
  | echoDiffers e _ h _ hq => exact .inr ⟨.inl h, e, hq⟩
  | headerRefused b _ _ h hq | tooLong b _ h hq | sumDiffers b _ h hq => exact .inr ⟨.inr h, b, hq⟩
  | gateMissed | sent | silent | moreWaiting | received => exact .inl rfl

/-- A poll step reads one byte of RXQ, empties it at the end of the wake-up pattern, or leaves it. -/
theorem PollTransition.rxq {s t : State} (h : PollTransition s t) :
    t.rxq = s.rxq ∨ ReadsLine s t ∨
      (s.phase = .initWake ∧ s.istep = .wakeHigh ∧ t.istep = .sendStart ∧ t.rxq = []) := by
  cases h with
  | echoMatched _ h _ hq => exact .inr (.inl ⟨.inl h, _, hq⟩)
  | headerTaken b _ h hq | lengthTaken b _ h hq | dataTaken b _ h hq | frameComplete b _ h hq =>
    exact .inr (.inl ⟨.inr h, b, hq⟩)
  | lineResumed h hi => exact .inr (.inr ⟨h, hi, rfl, rfl⟩)
  | ended r s1 t he hc =>
    rcases he.rxq with hq | ⟨hp, b, hq⟩
    · exact .inl (hc.rxq_eq.trans hq)
    · exact .inr (.inl ⟨hp, b, by rw [hc.rxq_eq, hq]⟩)
  | stay | gatePassed | minPassed | put | nextByte | pinLow | pinHigh => exact .inl rfl

theorem CommandEffect.rxq_eq {s t : State} {i : Instr} (h : CommandEffect s i t) : t.rxq = s.rxq := by
  cases h <;> rfl

/-- Settles O51, by the transitions of a step: LineRead at the front, arriving bytes at the end, the resumed line. -/
theorem receiveQueueIsFirstInFirstOut : Obligations.ReceiveQueueIsFirstInFirstOut := by
  intro s t h
  cases step_next h with
  | freePoll _ _ hp | poll _ _ _ hp => exact hp.rxq.imp_right (.imp_right .inr)
  | bytesArrive bs _ hin hl => exact .inr (.inr (.inl ⟨hl, bs, by simp [hin], rfl⟩))
  | command _ _ _ _ _ _ _ he => exact .inl he.rxq_eq
  | reset => exact .inl (by simp)
  | clock | bytesLost | ignored | hostWritesTx | hostWritesRx | hostReads => exact .inl rfl

/-! ## Commands (R63) -/

/-- Settles O5, by the equations of the CMD write and the effect of each command. -/
theorem commandWriteRunsDecodedCommand : Obligations.CommandWriteRunsDecodedCommand := by
  refine ⟨fun s w rest i hin hp hd => ?_, fun s w rest hin hp => ?_, fun i s t h => ?_⟩
  · exact (step_input hin).trans (issueCommand_idle (s := { s with inputs := rest }) hp hd)
  · exact (step_input hin).trans (issueCommand_busy (s := { s with inputs := rest }) hp)
  · cases exec_next h <;> rfl

/-! ## The buffers at the host port (R51, R66) -/

/-- The step that takes a listed move, written for a state whose list begins with it. -/
theorem step_listed (s : State) (m : Input) (rest : List Input) :
    step { s with inputs := m :: rest } = applyInput m { s with inputs := rest } := rfl

/-- Settles O7, by the port's equations at an idle engine and the buffers' law of a read after a write. -/
theorem hostBufferWriteThenRead : Obligations.HostBufferWriteThenRead := by
  intro s i j b hp hi hj
  refine ⟨fun hm => ?_, fun hm => ?_⟩
  · refine ⟨_, _, hostWriteByte_tx_idle (s := { s with inputs := [.readByte (0x100 + j)] }) b hi hp,
      (hostReadByte_tx hj).trans
        (readBuffer_idle (s := { s with inputs := [], txbuf := Memory.write s.txbuf i b }) _ j hp), ?_⟩
    simp only [Memory.read_write hm]
  · refine ⟨_, _, hostWriteByte_rx_idle (s := { s with inputs := [.readByte (0x300 + j)] }) b hi hp,
      (hostReadByte_rx hj).trans
        (readBuffer_idle (s := { s with inputs := [], rxbuf := Memory.write s.rxbuf i b }) _ j hp), ?_⟩
    simp only [Memory.read_write hm]

/-- Settles O8, by the port's equations at a busy engine. -/
theorem busyBuffersBelongToTheEngine : Obligations.BusyBuffersBelongToTheEngine := by
  intro s rest i hp hi
  have hbusy : State.phase { s with inputs := rest } ≠ .idle := hp
  refine ⟨fun b => ?_, fun b => ?_, ⟨Config.anyByte s.draws, ?_⟩, ⟨Config.anyByte s.draws, ?_⟩,
    ⟨statusWord s, ?_⟩, ⟨resultWord s.result, ?_⟩⟩ <;> rw [step_listed]
  · exact hostWriteByte_tx_busy b hi hbusy
  · exact hostWriteByte_rx_busy b hi hbusy
  · exact (hostReadByte_tx hi).trans (readBuffer_busy _ i hbusy)
  · exact (hostReadByte_rx hi).trans (readBuffer_busy _ i hbusy)
  · rfl
  · rfl

/-! ## Accesses without a meaning (R54, R55, R69) -/

theorem hostTarget_eq_status {a : Nat} (h : hostTarget a = .status) : a = 0x004 := by
  unfold hostTarget at h
  split_ifs at h
  assumption

theorem hostTarget_eq_result {a : Nat} (h : hostTarget a = .result) : a = 0x008 := by
  unfold hostTarget at h
  split_ifs at h
  assumption

theorem hostTarget_unmapped {a : Nat} (h : ¬ Claims.mappedAddress a) : hostTarget a = .reserved := by
  unfold hostTarget bufSize
  simp only [Claims.mappedAddress] at h
  rw [if_neg (by omega), if_neg (by omega), if_neg (by omega), if_neg (by omega), if_neg (by omega)]

/-- A word write has an effect at CMD only. -/
theorem hostWriteWord_ignored {a : Nat} (w : Word) (s : State) (h : a ≠ 0x000) : hostWriteWord a w s = .next s := by
  unfold hostWriteWord
  cases ht : hostTarget a with
  | cmd => exact absurd (hostTarget_eq_cmd ht) h
  | status | result | tx | rx | reserved => rfl

/-- A word read returns 0 but from STATUS and RESULT. -/
theorem hostWordAt_zero {a : Nat} (s : State) (h4 : a ≠ 0x004) (h8 : a ≠ 0x008) : hostWordAt a s = 0 := by
  unfold hostWordAt
  cases ht : hostTarget a with
  | status => exact absurd (hostTarget_eq_status ht) h4
  | result => exact absurd (hostTarget_eq_result ht) h8
  | cmd | tx | rx | reserved => rfl

theorem hostWriteByte_unmapped {a : Nat} (b : Byte) (s : State) (h : ¬ Claims.mappedAddress a) :
    hostWriteByte a b s = .next s := by
  unfold hostWriteByte
  rw [hostTarget_unmapped h]

theorem hostReadByte_unmapped {a : Nat} (s : State) (h : ¬ Claims.mappedAddress a) :
    hostReadByte a s = .next { s with hostData := 0 } := by
  unfold hostReadByte
  rw [hostTarget_unmapped h]

theorem step_writeWord_ignored {a : Nat} (s : State) (rest : List Input) (w : Word) (h : a ≠ 0x000) :
    step { s with inputs := .writeWord a w :: rest } = .next { s with inputs := rest } :=
  hostWriteWord_ignored w { s with inputs := rest } h

theorem step_readWord_zero {a : Nat} (s : State) (rest : List Input) (h4 : a ≠ 0x004) (h8 : a ≠ 0x008) :
    step { s with inputs := .readWord a :: rest } = .next { s with inputs := rest, hostData := 0 } := by
  rw [← hostWordAt_zero { s with inputs := rest } h4 h8]
  rfl

/-- Settles O11: word accesses have a meaning at CMD, STATUS and RESULT only, byte accesses in the buffers only. -/
theorem accessesOutsideTheRegisterMap : Obligations.AccessesOutsideTheRegisterMap := by
  intro s rest
  refine ⟨fun a ha => ?_, fun a _ h0 h4 h8 => ?_, fun a ha => ?_, step_readWord_zero s rest (by decide) (by decide),
    fun w => step_writeWord_ignored s rest w (by decide), fun w => step_writeWord_ignored s rest w (by decide)⟩
  · have h0 : a ≠ 0x000 := fun h => ha (.inl h)
    have h4 : a ≠ 0x004 := fun h => ha (.inr (.inl h))
    have h8 : a ≠ 0x008 := fun h => ha (.inr (.inr (.inl h)))
    exact ⟨fun w => step_writeWord_ignored s rest w h0,
      fun b => hostWriteByte_unmapped b { s with inputs := rest } ha, step_readWord_zero s rest h4 h8,
      hostReadByte_unmapped { s with inputs := rest } ha⟩
  · exact ⟨fun w => step_writeWord_ignored s rest w h0, step_readWord_zero s rest h4 h8⟩
  · rcases ha with rfl | rfl | rfl <;> exact ⟨fun b => rfl, rfl⟩

end Sys2Proof.Machine

/-! # Encoding (30_encoding.md)

The command word (R89 to R92): each format read back, the round trip in both directions, and the reserved words as the
words that encode no well-formed command. The words the host reads, STATUS (R95) and RESULT (R94), as numbers. The
results a running command can end with (R94). -/

namespace Sys2Proof

/-! ## The fields of an encoded word, and each format read back (R89, R90) -/

section
variable (op : BitVec 8) (buf : BufSel) (imm : BitVec 16)

@[simp] theorem opField_encodeCF0 : opField (encodeCF0 op) = op := by
  apply BitVec.eq_of_toNat_eq
  rw [opField_toNat, encodeCF0_toNat]
  omega

@[simp] theorem opField_encodeCF1 : opField (encodeCF1 op imm) = op := by
  apply BitVec.eq_of_toNat_eq
  rw [opField_toNat, encodeCF1_toNat]
  omega

@[simp] theorem opField_encodeCF2 : opField (encodeCF2 op buf imm) = op := by
  apply BitVec.eq_of_toNat_eq
  rw [opField_toNat, encodeCF2_toNat]
  omega

@[simp] theorem immField_encodeCF1 : immField (encodeCF1 op imm) = imm := by
  apply BitVec.eq_of_toNat_eq
  rw [immField_toNat, encodeCF1_toNat]
  omega

@[simp] theorem immField_encodeCF2 : immField (encodeCF2 op buf imm) = imm := by
  apply BitVec.eq_of_toNat_eq
  rw [immField_toNat, encodeCF2_toNat]
  omega

@[simp] theorem bselField_encodeCF2 : bselField (encodeCF2 op buf imm) = bufSelBit buf := by
  apply BitVec.eq_of_toNat_eq
  rw [bselField_toNat, encodeCF2_toNat]
  omega

@[simp] theorem decodeCF0_encodeCF0 (i : Instr) : decodeCF0 (encodeCF0 op) i = .ok i :=
  if_pos ((field_eq_zero ..).2 (by rw [encodeCF0_toNat]; omega))

@[simp] theorem decodeCF1_encodeCF1 (k : BitVec 16 → Except DecodeReject Instr) :
    decodeCF1 (encodeCF1 op imm) k = k imm := by
  unfold decodeCF1
  rw [if_pos ((field_eq_zero ..).2 (by rw [encodeCF1_toNat]; omega)), immField_encodeCF1]

@[simp] theorem decodeCF2_encodeCF2 (k : BufSel → BitVec 16 → Except DecodeReject Instr) :
    decodeCF2 (encodeCF2 op buf imm) k = k buf imm := by
  unfold decodeCF2
  rw [if_pos ((field_eq_zero ..).2 (by rw [encodeCF2_toNat]; omega)), bselField_encodeCF2, bufSelOf_bufSelBit,
    immField_encodeCF2]

end

/-! ## A word whose must-be-zero bits are zero is its fields put together (R90) -/

section
variable {w : Word} {i : Instr}

theorem decodeCF0_ok {j : Instr} (h : decodeCF0 w j = .ok i) : j = i ∧ encodeCF0 (opField w) = w := by
  unfold decodeCF0 at h
  split at h
  case isTrue h0 =>
    rw [field_eq_zero] at h0
    refine ⟨Except.ok.inj h, BitVec.eq_of_toNat_eq ?_⟩
    rw [encodeCF0_toNat, opField_toNat]
    omega
  case isFalse => cases h

theorem decodeCF1_ok {k : BitVec 16 → Except DecodeReject Instr} (h : decodeCF1 w k = .ok i) :
    k (immField w) = .ok i ∧ encodeCF1 (opField w) (immField w) = w := by
  unfold decodeCF1 at h
  split at h
  case isTrue h0 =>
    rw [field_eq_zero] at h0
    refine ⟨h, BitVec.eq_of_toNat_eq ?_⟩
    rw [encodeCF1_toNat, opField_toNat, immField_toNat]
    omega
  case isFalse => cases h

theorem decodeCF2_ok {k : BufSel → BitVec 16 → Except DecodeReject Instr} (h : decodeCF2 w k = .ok i) :
    k (bufSelOf (bselField w)) (immField w) = .ok i ∧
      encodeCF2 (opField w) (bufSelOf (bselField w)) (immField w) = w := by
  unfold decodeCF2 at h
  split at h
  case isTrue h0 =>
    rw [field_eq_zero] at h0
    refine ⟨h, BitVec.eq_of_toNat_eq ?_⟩
    rw [encodeCF2_toNat, bufSelBit_bufSelOf, opField_toNat, bselField_toNat, immField_toNat]
    omega
  case isFalse => cases h

theorem decodeChecksum_ok {buf : BufSel} {len : BitVec 16} (h : decodeChecksum buf len = .ok i) :
    len.toNat ≤ bufSize ∧ .checksum buf len = i := by
  unfold decodeChecksum at h
  split at h
  case isTrue hlen => exact ⟨hlen, Except.ok.inj h⟩
  case isFalse => cases h

theorem decodeReceive_ok {cap : BitVec 16} (h : decodeReceive cap = .ok i) :
    (4 ≤ cap.toNat ∧ cap.toNat ≤ bufSize) ∧ .receiveResponse cap = i := by
  unfold decodeReceive at h
  split at h
  case isTrue hcap => exact ⟨hcap, Except.ok.inj h⟩
  case isFalse => cases h

end

/-! ## The round trip (R91, R92) -/

/-- The opcode selects its row of the table in R91, on the decoder's side as on the encoder's. -/
theorem decode_encode {i : Instr} (h : i.wf = true) : decode (encode i) = .ok i := by
  cases i with
  | twReset | isPositive | sendRequest | getLastError | ecuInitialize =>
    unfold decode encode
    rw [opField_encodeCF0]
    exact decodeCF0_encodeCF0 ..
  | twElapsed ms =>
    unfold decode encode
    rw [opField_encodeCF1]
    exact decodeCF1_encodeCF1 ..
  | checksum buf len =>
    unfold decode encode
    rw [opField_encodeCF2]
    exact (decodeCF2_encodeCF2 ..).trans (if_pos (of_decide_eq_true h))
  | receiveResponse cap =>
    unfold decode encode
    rw [opField_encodeCF1]
    exact (decodeCF1_encodeCF1 ..).trans (if_pos (of_decide_eq_true h))

/-- Settles O2: the opcode of the word selects the command's row, and the row's format gives the operands back. -/
theorem decodeOfEncode : Obligations.DecodeOfEncode := fun _ h => decode_encode h

theorem opField_eq_ofNat {w : Word} {n : Nat} (h : (opField w).toNat = n) : opField w = BitVec.ofNat 8 n := by
  rw [← h, BitVec.ofNat_toNat, BitVec.setWidth_eq]

/-- The row the opcode selects leaves no bit of the word beside OP and the operands, and its operand check is R92's. -/
theorem decode_ok {w : Word} {i : Instr} (h : decode w = .ok i) : i.wf = true ∧ encode i = w := by
  unfold decode at h
  split at h
  case h_1 hn | h_4 hn | h_5 hn | h_7 hn | h_8 hn =>
    obtain ⟨rfl, hw⟩ := decodeCF0_ok h
    rw [opField_eq_ofNat hn] at hw
    exact ⟨rfl, hw⟩
  case h_2 hn =>
    obtain ⟨hi, hw⟩ := decodeCF1_ok h
    cases hi
    rw [opField_eq_ofNat hn] at hw
    exact ⟨rfl, hw⟩
  case h_3 hn =>
    obtain ⟨hi, hw⟩ := decodeCF2_ok h
    obtain ⟨hlen, rfl⟩ := decodeChecksum_ok hi
    rw [opField_eq_ofNat hn] at hw
    exact ⟨decide_eq_true hlen, hw⟩
  case h_6 hn =>
    obtain ⟨hi, hw⟩ := decodeCF1_ok h
    obtain ⟨hcap, rfl⟩ := decodeReceive_ok hi
    rw [opField_eq_ofNat hn] at hw
    exact ⟨decide_eq_true hcap, hw⟩
  case h_9 => cases h

/-- Settles O3, by the row of R91 that the opcode selects. -/
theorem decodedWordsAreEncodings : Obligations.DecodedWordsAreEncodings := fun _ _ h => decode_ok h

/-- Settles O1: every one of the nine words is the encoding of its command. -/
theorem opcodeMapWordsDecode : Obligations.OpcodeMapWordsDecode :=
  ⟨decode_encode (i := .twReset) rfl, decode_encode (i := .twElapsed 55) rfl,
    decode_encode (i := .checksum .tx 4) rfl, decode_encode (i := .checksum .rx 5) rfl,
    decode_encode (i := .isPositive) rfl, decode_encode (i := .sendRequest) rfl,
    decode_encode (i := .receiveResponse 260) rfl, decode_encode (i := .getLastError) rfl,
    decode_encode (i := .ecuInitialize) rfl⟩

/-! ## What each check of the decoder refuses (R90, R92) -/

section
variable {w : Word} {r : DecodeReject}

theorem decodeCF0_error {i : Instr} (h : decodeCF0 w i = .error r) : w.toNat % 2 ^ 24 ≠ 0 := by
  unfold decodeCF0 at h
  split at h
  case isTrue => cases h
  case isFalse h0 =>
    rw [field_eq_zero] at h0
    omega

theorem decodeCF1_error {k : BitVec 16 → Except DecodeReject Instr} (h : decodeCF1 w k = .error r) :
    2 ^ 16 ≤ w.toNat % 2 ^ 24 ∨ k (immField w) = .error r := by
  unfold decodeCF1 at h
  split at h
  case isTrue => exact .inr h
  case isFalse h0 =>
    rw [field_eq_zero] at h0
    omega

theorem decodeCF2_error {k : BufSel → BitVec 16 → Except DecodeReject Instr} (h : decodeCF2 w k = .error r) :
    2 ^ 17 ≤ w.toNat % 2 ^ 24 ∨ k (bufSelOf (bselField w)) (immField w) = .error r := by
  unfold decodeCF2 at h
  split at h
  case isTrue => exact .inr h
  case isFalse h0 =>
    rw [field_eq_zero] at h0
    omega

theorem decodeChecksum_error {buf : BufSel} {len : BitVec 16} (h : decodeChecksum buf len = .error r) :
    260 < len.toNat := by
  unfold decodeChecksum at h
  split at h
  · cases h
  · exact Nat.lt_of_not_le ‹_›

theorem decodeReceive_error {cap : BitVec 16} (h : decodeReceive cap = .error r) :
    cap.toNat < 4 ∨ 260 < cap.toNat := by
  unfold decodeReceive at h
  split at h
  case isTrue => cases h
  case isFalse hcap =>
    unfold bufSize at hcap
    omega

end

/-! ## The reserved words (R92) -/

theorem not_reservedWord_encode {i : Instr} (h : i.wf = true) : ¬ Claims.reservedWord (encode i) := by
  unfold Claims.reservedWord Claims.reservedFields
  cases i with
  | twReset | isPositive | sendRequest | getLastError | ecuInitialize =>
    simp only [encode, encodeCF0_toNat]
    decide
  | twElapsed ms =>
    simp only [encode, encodeCF1_toNat, BitVec.reduceToNat]
    omega
  | checksum buf len =>
    have hlen : len.toNat ≤ 260 := of_decide_eq_true h
    simp only [encode, encodeCF2_toNat, BitVec.reduceToNat]
    omega
  | receiveResponse cap =>
    have hcap : 4 ≤ cap.toNat ∧ cap.toNat ≤ 260 := of_decide_eq_true h
    simp only [encode, encodeCF1_toNat, BitVec.reduceToNat]
    omega

/-- Outside the conditions of R92 no check of the decoder refuses: neither the opcode's, nor its format's, nor its
operands'. -/
theorem reservedWord_of_decode_error {w : Word} {r : DecodeReject} (h : decode w = .error r) :
    Claims.reservedWord w := by
  unfold decode at h
  unfold Claims.reservedWord Claims.reservedFields
  rw [opField_toNat] at h
  split at h
  case h_1 | h_4 | h_5 | h_7 | h_8 =>
    have hlow := decodeCF0_error h
    omega
  case h_2 =>
    rcases decodeCF1_error h with hlow | hk
    · omega
    · cases hk
  case h_3 =>
    rcases decodeCF2_error h with hlow | hk
    · omega
    · have hlen := decodeChecksum_error hk
      rw [immField_toNat] at hlen
      omega
  case h_6 =>
    rcases decodeCF1_error h with hlow | hk
    · omega
    · have hcap := decodeReceive_error hk
      rw [immField_toNat] at hcap
      omega
  case h_9 =>
    simp only [imp_false] at *
    omega

/-- R92 is the decoder's refusal, in numbers. -/
theorem reservedWord_iff_decode_error (w : Word) : Claims.reservedWord w ↔ ∃ r, decode w = .error r := by
  refine ⟨fun hr => ?_, fun ⟨r, h⟩ => reservedWord_of_decode_error h⟩
  cases hd : decode w with
  | error r => exact ⟨r, rfl⟩
  | ok i =>
    obtain ⟨hwf, rfl⟩ := decode_ok hd
    exact absurd hr (not_reservedWord_encode hwf)

end Sys2Proof

namespace Sys2Proof.Machine

/-- A well-formed command completes its issuing step: only the operand ranges of R92 are tested there. -/
theorem exec_of_wf {i : Instr} (h : i.wf = true) (s : State) : ∃ t, exec i s = .next t := by
  cases i with
  | checksum buf len => exact ⟨_, if_pos (of_decide_eq_true h)⟩
  | receiveResponse cap => exact ⟨_, if_pos (of_decide_eq_true h)⟩
  | twReset | twElapsed | isPositive | sendRequest | getLastError | ecuInitialize => exact ⟨_, rfl⟩

/-- Settles O4: the port refuses while busy, the decoder refuses exactly the reserved words, and a command that decodes
is well formed and completes. -/
theorem reservedWordsAreRefused : Obligations.ReservedWordsAreRefused := by
  intro s w rest hin
  have hstep : step s = issueCommand w { s with inputs := rest } := step_input hin
  refine ⟨fun hp => ?_, fun hp hr => ?_, fun hp hr => ?_, by simp [State.afterRefusal, hin]⟩
  · exact hstep.trans (issueCommand_busy hp)
  · obtain ⟨r, hd⟩ := (reservedWord_iff_decode_error w).1 hr
    exact ⟨r, hstep.trans (issueCommand_reserved hp hd)⟩
  · cases hd : decode w with
    | error r => exact absurd (reservedWord_of_decode_error hd) hr
    | ok i =>
      obtain ⟨t, ht⟩ := exec_of_wf (decode_ok hd).1 { s with inputs := rest }
      have hexec := hstep.trans (issueCommand_idle hp hd)
      exact ⟨i, t, rfl, hexec, hexec.trans ht⟩

/-! ## The words the host reads (R94, R95) -/

theorem errorCode_toNat (c : ErrorCode) : (errorCode c).toNat = Claims.errorNumber c := by cases c <;> rfl

theorem phaseCode_toNat (p : Phase) : (phaseCode p).toNat = Claims.phaseNumber p := by cases p <;> rfl

theorem stepCode_toNat (i : InitStep) : (stepCode i).toNat = Claims.stepNumber i := by cases i <;> rfl

theorem State.busy_toNat (s : State) : s.busy.toNat = if s.phase = .idle then 0 else 1 := by
  split
  · rw [not_busy_of_idle ‹_›]
    rfl
  · rw [busy_of_ne_idle ‹_›]
    rfl

theorem statusWord_toNat (s : State) : (statusWord s).toNat =
    (if s.phase = .idle then 0 else 1) + 16 * Claims.phaseNumber s.phase + 256 * Claims.stepNumber s.istep := by
  unfold statusWord
  rw [← State.busy_toNat, ← phaseCode_toNat, ← stepCode_toNat]
  simp only [append_toNat, BitVec.toNat_ofBool, BitVec.toNat_zero]
  omega

/-- KIND and VALUE of each result are those of the table of R94. -/
theorem resultKind_resultValue_toNat (r : Result) :
    256 * (resultKind r).toNat + (resultValue r).toNat = Claims.resultNumber r := by
  have hcode (c : ErrorCode) : ((errorCode c).setWidth 8).toNat = Claims.errorNumber c := by
    rw [BitVec.toNat_setWidth_of_le (by decide), errorCode_toNat]
  cases r with
  | none | finished | pending => rfl
  | error c => exact congrArg (0x300 + ·) (hcode c)
  | bool b => cases b <;> rfl
  | byte b => rfl
  | errcode c => exact congrArg (0x600 + ·) (hcode c)

theorem resultWord_toNat (r : Result) : (resultWord r).toNat = Claims.resultNumber r := by
  unfold resultWord
  rw [← resultKind_resultValue_toNat]
  simp only [append_toNat, BitVec.toNat_zero]
  omega

/-- Settles O9: a read of STATUS at any time answers the STATUS word, whose fields stand in the places of R95. -/
theorem statusReadShowsPhaseAndStep : Obligations.StatusReadShowsPhaseAndStep :=
  fun s _ hin => ⟨statusWord s, step_input hin, statusWord_toNat s⟩

/-- Settles O10: a read of RESULT at any time answers the RESULT word, KIND above VALUE as R94 places them. -/
theorem resultReadShowsKindAndValue : Obligations.ResultReadShowsKindAndValue :=
  fun s _ hin => ⟨resultWord s.result, step_input hin, resultWord_toNat s.result⟩

/-! ## The results a running command can end with (R94, 60_exceptions.md R221 to R228) -/

section
variable {s s1 t : State} {r : OpResult}

theorem Ending.result_eq (h : Ending s r s1) : s1.result = s.result := by cases h <;> rfl

/-- The transmitter raises codes 1 and 8 only (60_exceptions.md R221, R228). -/
theorem Ending.sending_outcome (h : Ending s r s1) (hp : s.phase.sending = true) :
    r = .finished ∨ r = .error .p3MaxExceeded ∨ r = .error .echoMismatch := by
  cases h with
  | gateMissed | sent | echoDiffers => simp
  | headerRefused _ _ _ h | tooLong _ _ h | sumDiffers _ _ h | silent h | moreWaiting h | received h =>
    rw [h] at hp
    cases hp

/-- The receiver raises codes 2 to 7 only (60_exceptions.md R222 to R227). -/
theorem Ending.receiving_outcome (h : Ending s r s1) (hp : s.phase.receiving = true) :
    r = .finished ∨ r = .pending ∨
      ∃ c ∈ [ErrorCode.p2MaxTimeout, .badFormat, .badTargetAddress, .badSourceAddress, .bufferOverflow,
        .checksumMismatch], r = .error c := by
  cases h with
  | headerRefused _ _ _ _ _ hc => rcases hc with ⟨-, -, rfl⟩ | ⟨-, -, rfl⟩ | ⟨-, -, rfl⟩ <;> simp
  | tooLong | sumDiffers | silent | moreWaiting | received => simp
  | gateMissed h | sent h | echoDiffers _ _ h =>
    rw [h] at hp
    cases hp

/-- At ISTEP 0 an operation's outcome is the command's result (00_scope.md R19). -/
theorem Completion.result_of_notRunning (h : Completion s r t) (hi : s.istep = .notRunning) :
    t.result = opResult r := by
  cases h with
  | host => rfl
  | startSent h | startAnswered h | sessionSent h | sessionAnswered h => cases hi.symm.trans h
  | failed h => simp [hi] at h

/-- Inside INITIALIZE an operation that ends the command ends it with a Boolean (45_ecu_initializer.md R195). -/
theorem Completion.bool_of_running (h : Completion s r t) (hi : s.istep ≠ .notRunning) (ht : t.phase = .idle) :
    ∃ b, t.result = .bool b := by
  cases h with
  | host h => exact absurd h hi
  | sessionAnswered | failed => exact ⟨_, rfl⟩
  | startSent | startAnswered | sessionSent => cases ht

/-- An operation's end after which INITIALIZE goes on leaves RESULT alone. -/
theorem Completion.result_eq (h : Completion s r t) (ht : t.phase ≠ .idle) : t.result = s.result := by
  cases h with
  | host | sessionAnswered | failed => exact absurd rfl ht
  | startSent | startAnswered | sessionSent => rfl

theorem PollTransition.result_eq (h : PollTransition s t) (ht : t.phase ≠ .idle) : t.result = s.result := by
  cases h with
  | ended r s1 t he hc => exact (hc.result_eq ht).trans he.result_eq
  | stay | gatePassed | minPassed | put | nextByte | echoMatched | headerTaken | lengthTaken | dataTaken |
    frameComplete | pinLow | pinHigh | lineResumed => rfl

/-- A poll step that ends a command does so at the end of an operation. -/
theorem PollTransition.ending (h : PollTransition s t) (hs : s.phase ≠ .idle) (ht : t.phase = .idle) :
    ∃ r s1, Ending s r s1 ∧ Completion s1 r t :=
  (h.idle ht).resolve_left fun heq => hs (heq ▸ ht)

/-- A poll step that ends a host's operation leaves that operation's outcome in RESULT. -/
theorem PollTransition.host_outcome (h : PollTransition s t) (hi : s.istep = .notRunning) (hs : s.phase ≠ .idle)
    (ht : t.phase = .idle) : ∃ r s1, Ending s r s1 ∧ t.result = opResult r := by
  obtain ⟨r, s1, he, hc⟩ := h.ending hs ht
  exact ⟨r, s1, he, hc.result_of_notRunning (he.istep_eq.trans hi)⟩

end

/-- Settles O39: a poll step that ends a command ends an operation, whose phase says which outcomes it can have and
whose ISTEP says what RESULT becomes. -/
theorem resultKindsOfTheRunningCommand : Obligations.ResultKindsOfTheRunningCommand := by
  intro s t h
  have hpoll := pollStep_next h
  refine ⟨hpoll.result_eq, fun ht hi hs => ?_, fun ht hi hp => ?_, fun ht hi hp => ?_⟩
  · obtain ⟨r, s1, he, hc⟩ := hpoll.ending hs ht
    exact hc.bool_of_running (he.istep_eq.trans_ne hi) ht
  · have hs : s.phase ≠ .idle := fun hidle => by rw [hidle] at hp; cases hp
    obtain ⟨r, s1, he, hres⟩ := hpoll.host_outcome hi hs ht
    rw [hres]
    rcases he.sending_outcome hp with rfl | rfl | rfl <;> simp [opResult]
  · have hs : s.phase ≠ .idle := fun hidle => by rw [hidle] at hp; cases hp
    obtain ⟨r, s1, he, hres⟩ := hpoll.host_outcome hi hs ht
    rw [hres]
    rcases he.receiving_outcome hp with rfl | rfl | ⟨c, hc, rfl⟩
    · simp [opResult]
    · simp [opResult]
    · simpa [opResult] using hc

end Sys2Proof.Machine

/-! # The timing window (40_timing_window.md)

The two commands of the tracker as equations of `exec` (R110, R111), their words, and the property of R116: a window
opens strictly after its threshold, whether or not the clock wraps while it runs (R113). -/

namespace Sys2Proof.Machine

/-- R110. -/
theorem exec_twReset (s : State) : exec .twReset s = .next { s with ref := s.now, result := .none } := rfl

/-- R111, the comparison being that of R112. -/
theorem exec_twElapsed (ms : Ms) (s : State) :
    exec (.twElapsed ms) s = .next { s with result := .bool (s.exceeds ms) } := rfl

theorem encode_twElapsed (ms : Ms) : encode (.twElapsed ms) = BitVec.ofNat 32 (0x02000000 + ms.toNat) :=
  (BitVec.ofNat_toNat 32 (encodeCF1 0x02 ms)).symm.trans (congrArg _ (encodeCF1_toNat 0x02 ms))

theorem State.exceeds_eq_windowPassed (s : State) (ms : Ms) : s.exceeds ms = decide (Claims.windowPassed s ms) :=
  Bool.eq_iff_iff.2 ((s.exceeds_iff ms).trans decide_eq_true_iff.symm)

/-- The elapsed time `d` microseconds after REF was captured, fewer than the clock can count, is `d` (R113). -/
theorem State.elapsed_of_now {s : State} {d : Nat} (hd : d < 2 ^ s.params.timeWidth)
    (hnow : s.now = wrapT s.params.timeWidth (s.ref + d)) : s.elapsed = d := by
  unfold State.elapsed
  rw [hnow, subT_wrapT s.ref hd]

/-- R112 on the true time passed. -/
theorem State.exceeds_of_now {s : State} {d : Nat} (ms : Ms) (hd : d < 2 ^ s.params.timeWidth)
    (hnow : s.now = wrapT s.params.timeWidth (s.ref + d)) : s.exceeds ms = decide (1000 * ms.toNat < d) := by
  unfold State.exceeds
  rw [State.elapsed_of_now hd hnow, micros_eq, Nat.mul_comm]

/-- Settles O14: TW_RESET leaves REF at the clock that the advance of `d` starts from, and the difference of the two is
`d` again. -/
theorem windowOpensStrictlyAfterThreshold : Obligations.WindowOpensStrictlyAfterThreshold :=
  fun s ms _ hd =>
    ⟨_, _, exec_twReset s, exec_twElapsed ms _, congrArg Result.bool (State.exceeds_of_now ms hd rfl), rfl⟩

/-- Settles O12, by the equation of TW_RESET. -/
theorem twResetCapturesNow : Obligations.TwResetCapturesNow :=
  ⟨decode_encode (i := .twReset) rfl, exec_twReset⟩

/-- Settles O13, by the round trip of the word and the equation of TW_ELAPSED. -/
theorem twElapsedComparesStrictly : Obligations.TwElapsedComparesStrictly := by
  intro ms s
  constructor
  · rw [← encode_twElapsed]
    exact decode_encode rfl
  · rw [exec_twElapsed, State.exceeds_eq_windowPassed]

end Sys2Proof.Machine

/-! # The checksum (41_checksum.md)

CHECKSUM's word and its equation of `exec` on both sides of the range of R92 (R120, R121), and the two properties of
R123: the bytes' order does not matter, and a single changed byte always shows. -/

namespace Sys2Proof

/-- R89, R90: CHECKSUM's word as a number. -/
theorem encode_checksum (buf : BufSel) (len : BitVec 16) :
    encode (.checksum buf len) = BitVec.ofNat 32 (0x03000000 + (bufSelBit buf).toNat * 0x10000 + len.toNat) :=
  (BitVec.ofNat_toNat 32 (encodeCF2 0x03 buf len)).symm.trans (congrArg _ (encodeCF2_toNat 0x03 buf len))

/-- R92: a CHECKSUM word is refused for its count only. -/
theorem decode_encode_checksum (buf : BufSel) (len : BitVec 16) :
    decode (encode (.checksum buf len)) = decodeChecksum buf len := by
  unfold decode encode
  rw [opField_encodeCF2]
  exact decodeCF2_encodeCF2 ..

theorem decode_encode_checksum_of_gt {buf : BufSel} {len : BitVec 16} (h : 260 < len.toNat) :
    decode (encode (.checksum buf len)) = .error .checksumLength :=
  (decode_encode_checksum buf len).trans (if_neg (Nat.not_le.2 h))

end Sys2Proof

namespace Sys2Proof.Machine

/-- R121. -/
theorem exec_checksum {buf : BufSel} {len : BitVec 16} (h : len.toNat ≤ 260) (s : State) :
    exec (.checksum buf len) s = .next { s with result := .byte (sum8 (bufferOf buf s) len.toNat) } :=
  if_pos h

/-- R92 (assumption log 16). -/
theorem exec_checksum_of_gt {buf : BufSel} {len : BitVec 16} (h : 260 < len.toNat) (s : State) :
    exec (.checksum buf len) s = .refused (.reservedCommand .checksumLength) :=
  if_neg (Nat.not_le.2 h)

/-- Settles O15, by CHECKSUM's word and its equation of `exec` on either side of 260. -/
theorem checksumIsTheSumModulo256 : Obligations.ChecksumIsTheSumModulo256 := by
  intro buf len s m bsel
  have hm : m = bufferOf buf s := by cases buf <;> rfl
  have hbsel : bsel = (bufSelBit buf).toNat * 0x10000 := by cases buf <;> rfl
  rw [hm, hbsel, ← encode_checksum, ← sum8_eq_sum]
  exact ⟨fun h => decode_encode (decide_eq_true h), decode_encode_checksum_of_gt, fun h => exec_checksum h s,
    fun h => exec_checksum_of_gt h s⟩

/-- Settles O16: the checksum is the sum of the list of bytes, and a sum does not see the order. -/
theorem checksumIgnoresByteOrder : Obligations.ChecksumIgnoresByteOrder := by
  intro m m' n h
  rw [sum8_eq_bytes, sum8_eq_bytes, (h.map BitVec.toNat).sum_eq]

/-- A write outside the range leaves the checksum as it was. -/
theorem sum8_write_of_le {m : Memory} (hm : m.wf = true) {n k : Nat} (h : n ≤ k) (b : Byte) :
    sum8 (Memory.write m k b) n = sum8 m n :=
  sum8_congr fun i hi => by rw [Memory.read_write hm, if_neg (by omega)]

/-- A write inside the range puts the new byte into the checksum in the place of the old one. -/
theorem sum8_write_add_read {m : Memory} (hm : m.wf = true) {n k : Nat} (h : k < n) (b : Byte) :
    sum8 (Memory.write m k b) n + Memory.read m k = sum8 m n + b := by
  induction n with
  | zero => omega
  | succ n ih =>
    rw [sum8_succ, sum8_succ, Memory.read_write hm]
    rcases Nat.lt_succ_iff_lt_or_eq.1 h with hk | rfl
    · rw [if_neg (Nat.ne_of_gt hk), add_right_comm, ih hk, add_right_comm]
    · rw [if_pos rfl, sum8_write_of_le hm (Nat.le_refl k), add_right_comm]

/-- Settles O17: equal checksums of the two buffers would cancel to the new byte being the old one. -/
theorem singleChangedByteChangesChecksum : Obligations.SingleChangedByteChangesChecksum := by
  refine fun m n k b hm => ⟨fun hk hb heq => hb ?_, fun hk => sum8_write_of_le hm hk b⟩
  have hsum := sum8_write_add_read hm hk b
  rw [heq] at hsum
  exact (add_left_cancel hsum).symm

end Sys2Proof.Machine

/-! # The frame validator (42_frame_validator.md)

IS_POSITIVE's equation of `exec` (R130) and its predicate in numbers: the sum is taken without wrapping (R132). -/

namespace Sys2Proof.Machine

/-- R130. -/
theorem exec_isPositive (s : State) : exec .isPositive s = .next { s with result := .bool s.positive } := rfl

theorem State.positive_eq_decide (s : State) :
    s.positive = decide ((Memory.read s.rxbuf 4).toNat = (serviceId s.txbuf).toNat + 0x40) :=
  Bool.eq_iff_iff.2 (s.positive_iff.trans decide_eq_true_iff.symm)

/-- Settles O18, by the round trip of the word, the equation of IS_POSITIVE and its predicate in numbers. -/
theorem isPositiveComparesServiceId : Obligations.IsPositiveComparesServiceId := by
  refine ⟨decode_encode (i := .isPositive) rfl, fun s => ?_⟩
  rw [exec_isPositive, State.positive_eq_decide, serviceId]

end Sys2Proof.Machine

/-! # The request transmitter (43_request_transmitter.md)

SEND_REQUEST's equation of `exec` (R140), the poll step of each phase (R141 to R144, R153), and the property
of R145 and R152: a transmission ends with its whole request on the line, or on the first wrong echo. -/

namespace Sys2Proof.Machine

/-! ## SEND_REQUEST (R140) -/

theorem exec_sendRequest (s : State) :
    exec .sendRequest s = .next { s with txlen := requestLength s.txbuf, idx := 0, phase := .txGate } := rfl

theorem requestLength_eq_ofNat (m : Memory) : requestLength m =
    BitVec.ofNat 9 (if Memory.read m 0 = 0x81 then 5 else (Memory.read m 3).toNat + 5) := by
  unfold requestLength
  split
  · rfl
  · exact len9_eq_ofNat _

/-- Settles O19, by the equation of SEND_REQUEST and the length rule in numbers. -/
theorem sendRequestStartsTheGate : Obligations.SendRequestStartsTheGate := fun s => by
  rw [exec_sendRequest, requestLength_eq_ofNat]

/-! ## The four phases (R141 to R144) -/

/-- Settles O20, by the two sides of the gate's test. -/
theorem txGateTestsP3Max : Obligations.TxGateTestsP3Max := fun s h =>
  ⟨fun hw => (pollStep_txGate h).trans (if_pos ((s.exceeds_iff _).2 hw)),
    fun hw => (pollStep_txGate h).trans (if_neg (mt (s.exceeds_iff _).1 hw))⟩

/-- Settles O21, by the two sides of the wait's test. -/
theorem txWaitHoldsUntilP3Min : Obligations.TxWaitHoldsUntilP3Min := fun s h =>
  ⟨fun hw => (pollStep_txWait h).trans (if_pos ((s.exceeds_iff _).2 hw)),
    fun hw => (pollStep_txWait h).trans (if_neg (mt (s.exceeds_iff _).1 hw))⟩

/-- Settles O22: an offset of a buffer passes TX_PUT's only test. -/
theorem txPutWritesAndResetsWindow : Obligations.TxPutWritesAndResetsWindow := fun s h hi =>
  (pollStep_txPut h).trans (if_pos (s.idxInBuffer_iff.2 hi))

section
variable {s : State} {e : Byte} {rest : List Byte}

/-- Time first: past P4_MIN the receive side is not looked at (R153). -/
theorem pollTxEcho_of_exceeds (hx : s.exceeds s.params.p4Min = true) : pollTxEcho s = echoWindowOver s := if_pos hx

theorem pollTxEcho_of_nil (hx : ¬ s.exceeds s.params.p4Min = true) (hq : s.rxq = []) : pollTxEcho s = .next s := by
  rw [pollTxEcho, if_neg hx, State.lineRead_of_nil hq]

theorem pollTxEcho_of_cons (hx : ¬ s.exceeds s.params.p4Min = true) (hq : s.rxq = e :: rest) :
    pollTxEcho s = checkEcho e { s with rxq := rest } := by
  rw [pollTxEcho, if_neg hx, State.lineRead_of_cons hq]

theorem checkEcho_of_lt (hi : s.idx.toNat < bufSize) :
    checkEcho e s = if e ≠ s.txByte then raiseError .echoMismatch s else .next s :=
  if_pos (s.idxInBuffer_iff.2 hi)

end

/-- Settles O23, by the poll step of an echo window: over, without a byte, and with one. -/
theorem txEchoComparesEveryByte : Obligations.TxEchoComparesEveryByte := by
  intro s h
  have hover (hw : Claims.windowPassed s s.params.p4Min) : pollStep s = echoWindowOver s :=
    (pollStep_txEcho h).trans (pollTxEcho_of_exceeds ((s.exceeds_iff _).2 hw))
  refine ⟨fun hw hl => (hover hw).trans (if_pos hl), fun hw hl => (hover hw).trans (if_neg hl), fun hw hq => ?_,
    fun e rest hw hq hi => ?_⟩
  · exact (pollStep_txEcho h).trans (pollTxEcho_of_nil (mt (s.exceeds_iff _).1 hw) hq)
  · have hread := (pollStep_txEcho h).trans (pollTxEcho_of_cons (mt (s.exceeds_iff _).1 hw) hq)
    have hcheck := hread.trans (checkEcho_of_lt hi)
    exact ⟨fun he => hcheck.trans (if_neg (not_not.2 he)), fun he => hcheck.trans (if_pos he)⟩

/-! ## How a transmission ends (R145, R152, 45_ecu_initializer.md R195) -/

section
variable {s t : State}

/-- A poll step leaves the transmitter's phases only at the end of an operation. -/
theorem PollTransition.ending_of_sending (h : PollTransition s t) (hs : s.phase.sending = true)
    (ht : t.phase.sending = false) : ∃ r s1, Ending s r s1 ∧ Completion s1 r t := by
  cases h with
  | ended r s1 _ he hc => exact ⟨r, s1, he, hc⟩
  | stay | echoMatched => exact absurd (hs.symm.trans ht) (by decide)
  | gatePassed | minPassed | put | nextByte => cases ht
  | headerTaken _ _ h | lengthTaken _ _ h | dataTaken _ _ h | frameComplete _ _ h
  | pinLow h | pinHigh h | lineResumed h =>
    rw [h] at hs
    cases hs

/-- A request sent whole ends the host's command and takes INITIALIZE on to the response. -/
theorem Completion.of_sent (h : Completion s .finished t)
    (hi : s.istep = .notRunning ∨ s.istep = .sendStart ∨ s.istep = .sendSession) :
    (s.istep = .notRunning → t.phase = .idle ∧ t.result = .finished) ∧
      (s.istep ≠ .notRunning → t.phase = .rxAssemble ∧ t.result = s.result) := by
  cases h with
  | host h => exact ⟨fun _ => ⟨rfl, rfl⟩, fun hne => absurd h hne⟩
  | startSent h | sessionSent h => exact ⟨fun h0 => (by cases h0.symm.trans h), fun _ => ⟨rfl, rfl⟩⟩
  | startAnswered h | sessionAnswered h => simp [h] at hi
  | failed _ hr => rcases (hr rfl).1 with h | h <;> simp [h] at hi

/-- A raised error ends the command, INITIALIZE's with false, and stands in LAST_ERROR. -/
theorem Completion.of_error {c : ErrorCode} (h : Completion s (.error c) t) :
    t.lastError = s.lastError ∧ t.phase = .idle ∧ (s.istep = .notRunning → t.result = .error c) ∧
      (s.istep ≠ .notRunning → t.result = .bool false) := by
  cases h with
  | host h => exact ⟨rfl, rfl, fun _ => rfl, fun hne => absurd h hne⟩
  | failed h => exact ⟨rfl, rfl, fun h0 => by simp [h0] at h, fun _ => rfl⟩
  | startSent _ hr | startAnswered _ hr | sessionSent _ hr | sessionAnswered _ hr => cases hr

/-- Ending an operation moves neither the clock nor the window. -/
theorem Completion.p4Min_passed {r : OpResult} (h : Completion s r t) (hx : s.exceeds s.params.p4Min = true) :
    Claims.windowPassed t t.params.p4Min := by
  rw [h.params_eq, Claims.windowPassed, h.params_eq, h.now_eq, h.ref_eq]
  exact (s.exceeds_iff _).1 hx

end

/-- Settles O25: a step that leaves the transmitter ends its operation, in TX_ECHO with the last byte's window over or
on a wrong echo; the bytes up to IDX are at the end of TXLOG, and after the last byte these are all of them. -/
theorem finishedMeansWholeRequestSent : Obligations.FinishedMeansWholeRequestSent := by
  intro s t hI hS hp hstep ht
  have hsend : s.phase.sending = true := by rw [hp]; rfl
  obtain ⟨r, s1, he, hc⟩ := (pollStep_next hstep).ending_of_sending hsend ht
  have hlog : Memory.bytes s.txbuf (s.idx.toNat + 1) <:+ t.txlog := by
    rw [hc.txlog_eq, he.txlog_eq, ← State.sentCount_txEcho hp]
    exact hS.current
  cases he with
  | sent _ hx hl =>
    have hlast : s.idx.toNat + 1 = s.txlen.toNat := by
      have := hI.sending_bounds hsend
      bv_omega
    exact .inl ⟨hlast ▸ hlog, hc.ref_eq, hc.p4Min_passed hx, hc.of_sent (hI.sending_facts hsend).1⟩
  | echoDiffers =>
    obtain ⟨herr, hend⟩ := hc.of_error
    exact .inr ⟨hlog, hc.ref_eq, herr, hend⟩
  | gateMissed h | headerRefused _ _ _ h | tooLong _ _ h | sumDiffers _ _ h | silent h | moreWaiting h | received h =>
    cases hp.symm.trans h

end Sys2Proof.Machine

/-! # The response receiver (44_response_receiver.md)

RECEIVE_RESPONSE's equation of `exec` (R160), what the check of each byte answers (R161 to R168), the two waits (R169,
R170), that no step faults from a state within the invariant (R168), and the property of R176: a reception ends with an
accepted frame in RXBUF or with one of the six errors of the receiver. -/

namespace Sys2Proof.Machine

/-! ## RECEIVE_RESPONSE (R160) -/

theorem exec_receiveResponse {cap : BitVec 16} (h : 4 ≤ cap.toNat ∧ cap.toNat ≤ 260) (s : State) :
    exec (.receiveResponse cap) s = .next { s with rxcap := capacity cap, idx := 0, phase := .rxAssemble } := if_pos h

theorem exec_receiveResponse_of_reserved {cap : BitVec 16} (h : ¬ (4 ≤ cap.toNat ∧ cap.toNat ≤ 260)) (s : State) :
    exec (.receiveResponse cap) s = .refused (.reservedCommand .responseCapacity) := if_neg h

theorem capacity_eq_ofNat (cap : BitVec 16) : capacity cap = BitVec.ofNat 9 cap.toNat :=
  (BitVec.ofNat_toNat 9 cap).symm

/-- Settles O26, by the equation of RECEIVE_RESPONSE on either side of its range. -/
theorem receiveResponseStartsAssembling : Obligations.ReceiveResponseStartsAssembling := fun cap s =>
  ⟨fun h => capacity_eq_ofNat cap ▸ exec_receiveResponse h s, fun h => exec_receiveResponse_of_reserved h s⟩

/-! ## The check of a byte at each index (R162 to R167) -/

section
variable {s : State} {b : Byte}

theorem checkByte_format (h : s.idx = 0) :
    checkByte b s = if b ≠ s.params.rxFormat then raiseError .badFormat s else .next s.nextIdx := if_pos h

theorem checkByte_target (h : s.idx = 1) :
    checkByte b s = if b ≠ s.params.testerAddr then raiseError .badTargetAddress s else .next s.nextIdx := by
  simp [checkByte, h]

theorem checkByte_source (h : s.idx = 2) :
    checkByte b s = if b ≠ s.params.ecuAddr then raiseError .badSourceAddress s else .next s.nextIdx := by
  simp [checkByte, h]

theorem checkByte_length (h : s.idx = 3) : checkByte b s = checkLength b s := by
  simp [checkByte, h]

/-- The two answers of a comparison with an expected header byte. -/
theorem headerComparison {x : Byte} {c : ErrorCode} {o : StepResult} {i : Count}
    (h : o = if b ≠ x then raiseError c s else .next s.nextIdx) (hi : s.idx + 1 = i) :
    (b = x → o = .next { s with idx := i }) ∧ (b ≠ x → o = raiseError c s) := by
  subst hi
  exact ⟨fun hb => h.trans (if_neg (not_not.2 hb)), fun hb => h.trans (if_pos hb)⟩

end

/-- Settles O27: a header index lies inside the buffer, so the byte is stored and compared with what its index asks. -/
theorem headerBytesAreChecked : Obligations.HeaderBytesAreChecked := by
  intro s b rest hp hq
  refine ⟨fun hi => ?_, fun hi => ?_, fun hi => ?_⟩ <;>
    have htake := pollStep_takes hp hq (by simp [hi, bufSize])
  · exact headerComparison (htake.trans (checkByte_format hi)) (by simp [hi])
  · exact headerComparison (htake.trans (checkByte_target hi)) (by simp [hi])
  · exact headerComparison (htake.trans (checkByte_source hi)) (by simp [hi])

/-- Settles O28, by the two sides of the comparison of TOTAL with RXCAP, in numbers. -/
theorem lengthByteIsHeldToCapacity : Obligations.LengthByteIsHeldToCapacity := by
  intro s b rest hp hq hi
  have hcheck : pollStep s = checkLength b (s.taken b rest) :=
    (pollStep_takes hp hq (by simp [hi, bufSize])).trans (checkByte_length hi)
  have hover : (s.taken b rest).rxcap < len9 b ↔ s.rxcap.toNat < b.toNat + 5 := by
    rw [BitVec.lt_def, len9_toNat]
    rfl
  rw [hcheck, ← len9_eq_ofNat]
  refine ⟨fun hle => ?_, fun hlt => if_pos (hover.2 hlt)⟩
  have hidx : s.idx + 1 = 4 := by simp [hi]
  rw [← hidx]
  exact if_neg (by rw [hover]; omega)

/-- Settles O29: only the byte at IDX = TOTAL - 1 is compared, and storing it leaves the bytes summed as they were. -/
theorem finalByteMustBeTheChecksum : Obligations.FinalByteMustBeTheChecksum := by
  intro s b rest hp hq hi hb hwf
  have hcheck := (pollStep_takes hp hq hb).trans (checkByte_data hi)
  have hfinal (hf : s.idx.toNat + 1 = s.total.toNat) :
      pollStep s = if b ≠ sum8 s.rxbuf s.idx.toNat then raiseError .checksumMismatch (s.taken b rest)
        else .next { s.taken b rest with idx := s.idx + 1, phase := .rxPeek } := by
    have hsum : sum8 (s.taken b rest).rxbuf (s.total.toNat - 1) = sum8 s.rxbuf s.idx.toNat := by
      rw [← hf]
      exact sum8_write_of_le hwf le_rfl b
    rw [hcheck, ← hsum]
    exact if_pos hf
  refine ⟨fun hf => hcheck.trans (if_neg hf), fun hf hs => ?_, fun hf hs => (hfinal hf).trans (if_pos hs)⟩
  have hidx : s.idx + 1 = s.total := by bv_omega
  rw [← hidx]
  exact (hfinal hf).trans (if_neg (not_not.2 hs))

/-! ## No step faults within the invariant (R168, 20_memory.md R50, 45_ecu_initializer.md R195) -/

section
variable {s : State}

/-- IDX lies inside the buffers in every phase that uses one, and no operation runs during the wake-up steps. -/
theorem Inv.pollStep_ne_fault (hI : Inv s) (f : Fault) : pollStep s ≠ .fault f := by
  intro h
  rcases pollStep_fault h with ⟨hp, hidx⟩ | ⟨hne, hnw, hwake⟩
  · have hsend (h : s.phase.sending = true) : s.idx.toNat < bufSize := by
      have := hI.sending_bounds h
      omega
    have hlt : s.idx.toNat < bufSize := by
      rcases hp with hp | hp | hp
      · exact hsend (by rw [hp]; rfl)
      · exact hsend (by rw [hp]; rfl)
      · exact hI.idx_lt_bufSize hp
    omega
  · have hq := hI.sequencing
    cases hp : s.phase with
    | idle => exact hne hp
    | initWake => exact hnw hp
    | txGate | txWait | txPut | txEcho | rxAssemble | rxPeek =>
      rw [hp] at hq
      rcases hwake with hi | hi | hi <;> rw [hi] at hq <;> cases hq

/-- Within the invariant a poll step always gives a next state. -/
theorem Inv.exists_pollStep_eq_next (hI : Inv s) : ∃ t, pollStep s = .next t := by
  cases h : pollStep s with
  | next t => exact ⟨t, rfl⟩
  | fault f => exact absurd h (hI.pollStep_ne_fault f)
  | refused r => exact absurd h (pollStep_ne_refused s r)

theorem hostWriteWord_ne_fault (a : Nat) (w : Word) (s : State) (f : Fault) : hostWriteWord a w s ≠ .fault f := by
  unfold hostWriteWord issueCommand
  repeat' split
  all_goals simp [exec_ne_fault]

theorem hostWriteByte_ne_fault (a : Nat) (b : Byte) (s : State) (f : Fault) : hostWriteByte a b s ≠ .fault f := by
  unfold hostWriteByte
  repeat' split
  all_goals simp

theorem hostReadByte_ne_fault (a : Nat) (s : State) (f : Fault) : hostReadByte a s ≠ .fault f := by
  unfold hostReadByte readBuffer
  repeat' split
  all_goals simp

/-- Of the listed moves only a poll step could fault, and within the invariant it does not. -/
theorem Inv.applyInput_ne_fault (hI : Inv s) (m : Input) (f : Fault) : applyInput m s ≠ .fault f := by
  cases m with
  | poll => exact hI.pollStep_ne_fault f
  | writeWord a w => exact hostWriteWord_ne_fault a w s f
  | writeByte a b => exact hostWriteByte_ne_fault a b s f
  | readByte a => exact hostReadByte_ne_fault a s f
  | advance | arrive | readWord | rst => exact nofun

end

/-- Settles O56: a step is a poll step or a listed move, and neither faults within the invariant. -/
theorem noStepFaults : Obligations.NoStepFaults := by
  intro s f hI
  cases hin : s.inputs with
  | nil => exact step_noInput hin ▸ hI.gap.pollStep_ne_fault f
  | cons m rest => exact step_input hin ▸ (hI.withInputs rest).applyInput_ne_fault m f

/-! ## What a taken byte changes, whether or not it passes its check (R168) -/

section
variable {s t : State} {b : Byte}

/-- Checking a byte raises an error or advances IDX; beside that it writes TOTAL and PHASE at most. -/
inductive CheckOutcome (s : State) : StepResult → Prop where
  | raises (c : ErrorCode) (n : Count) : CheckOutcome s (raiseError c { s with total := n })
  | passes (n : Count) (p : Phase) : CheckOutcome s (.next { s with total := n, idx := s.idx + 1, phase := p })

theorem CheckOutcome.of_comparison {x : Byte} {c : ErrorCode} :
    CheckOutcome s (if b ≠ x then raiseError c s else .next s.nextIdx) := by
  split
  · exact .raises c s.total
  · exact .passes s.total s.phase

theorem checkByte_outcome (b : Byte) (s : State) : CheckOutcome s (checkByte b s) := by
  rcases count_le_3_cases s.idx with hi | hi | hi | hi | hi
  · rw [checkByte_format hi]
    exact .of_comparison
  · rw [checkByte_target hi]
    exact .of_comparison
  · rw [checkByte_source hi]
    exact .of_comparison
  · rw [checkByte_length hi, checkLength]
    split
    · exact .raises _ _
    · exact .passes _ s.phase
  · rw [checkByte_data hi, checkFinal]
    split
    · split
      · exact .raises _ s.total
      · exact .passes s.total _
    · exact .passes s.total s.phase

/-- An operation that ends in an error loads no request. -/
theorem Completion.txbuf_eq_of_error {c : ErrorCode} (h : Completion s (.error c) t) : t.txbuf = s.txbuf := by
  cases h with
  | host | failed => rfl
  | startSent _ hr | startAnswered _ hr | sessionSent _ hr | sessionAnswered _ hr => cases hr

/-- The check leaves REF, RXQ and both buffers alone. -/
theorem CheckOutcome.frame {o : StepResult} (ho : CheckOutcome s o) (h : o = .next t) :
    t.ref = s.ref ∧ t.rxq = s.rxq ∧ t.rxbuf = s.rxbuf ∧ t.txbuf = s.txbuf := by
  cases ho with
  | raises c n =>
    have hc := complete_next h
    exact ⟨hc.ref_eq, hc.rxq_eq, hc.rxbuf_eq, hc.txbuf_eq_of_error⟩
  | passes n p =>
    cases h
    exact ⟨rfl, rfl, rfl, rfl⟩

end

/-- Settles O30: the byte is stored before it is checked, and the check leaves REF, RXQ and the buffers alone. -/
theorem eachReceivedByteIsStoredAtItsIndex : Obligations.EachReceivedByteIsStoredAtItsIndex := by
  intro s b rest hI hp hq
  obtain ⟨t, ht⟩ := hI.exists_pollStep_eq_next
  have hcheck := (pollStep_takes hp hq (hI.idx_lt_bufSize hp)).symm.trans ht
  obtain ⟨href, hrxq, hrx, htx⟩ := (checkByte_outcome b _).frame hcheck
  refine ⟨BitVec.lt_def.2 (hI.assembling_bounds hp), t, ht, href, hrxq, fun a => ?_, fun a => by rw [htx]; rfl⟩
  rw [hrx]
  exact Memory.read_write hI.rxbuf_wf s.idx.toNat b a

/-! ## The two waits (R169, R170) -/

section
variable {s : State}

theorem pollRxAssemble_of_nil (hq : s.rxq = []) :
    pollRxAssemble s = if s.exceeds s.params.p2Max then raiseError .p2MaxTimeout s else .next s := by
  rw [pollRxAssemble, State.lineRead_of_nil hq]

theorem pollRxPeek_of_ne_nil (hq : s.rxq ≠ []) : pollRxPeek s = complete .pending s :=
  if_pos (List.length_pos_iff.2 hq)

theorem pollRxPeek_of_nil (hq : s.rxq = []) :
    pollRxPeek s = if s.exceeds s.params.p2Max then complete .finished s else .next s :=
  if_neg (by simp [State.lineAvail, hq])

end

/-- Settles O31, by the two sides of the timeout's test. -/
theorem silentLineTimesOut : Obligations.SilentLineTimesOut := by
  intro s hp hq
  rw [pollStep_rxAssemble hp, pollRxAssemble_of_nil hq]
  exact ⟨fun hw => if_pos ((s.exceeds_iff _).2 hw), fun hw => if_neg (mt (s.exceeds_iff _).1 hw)⟩

/-- Settles O32: availability is tested before time. -/
theorem peekTellsPendingFromFinished : Obligations.PeekTellsPendingFromFinished := by
  intro s hp
  rw [pollStep_rxPeek hp]
  exact ⟨pollRxPeek_of_ne_nil, fun hq hw => (pollRxPeek_of_nil hq).trans (if_pos ((s.exceeds_iff _).2 hw)),
    fun hq hw => (pollRxPeek_of_nil hq).trans (if_neg (mt (s.exceeds_iff _).1 hw))⟩

/-! ## How a reception ends (R176, R122, 45_ecu_initializer.md R195) -/

section
variable {s s1 t : State} {r : OpResult}

/-- A frame under observation has passed every check. -/
theorem Inv.frameAccepted (hI : Inv s) (h : s.phase = .rxPeek) : FrameAccepted s := by
  obtain ⟨-, -, hhead⟩ := hI.receiving (by rw [h]; rfl)
  obtain ⟨-, hidx, hsum⟩ := hI.peeking h
  obtain ⟨hlen, hfits⟩ := hhead.length hidx
  exact ⟨hhead.format (by omega), hhead.target (by omega), hhead.source (by omega), by rw [hlen, len9_toNat], hfits,
    hsum⟩

theorem FrameAccepted.frame (h : FrameAccepted s) (hb : t.rxbuf = s.rxbuf) (hp : t.params = s.params)
    (ht : t.total = s.total) (hc : t.rxcap = s.rxcap) : FrameAccepted t := by
  obtain ⟨hfmt, htgt, hsrc, hlen, hfits, hsum⟩ := h
  constructor <;> simp only [hb, hp, ht, hc] <;> assumption

theorem Completion.total_eq (h : Completion s r t) : t.total = s.total := by cases h <;> simp

/-- Only the start of a reception writes RXCAP. -/
theorem Completion.rxcap_eq (h : Completion s r t)
    (hi : s.istep = .notRunning ∨ s.istep = .recvStart ∨ s.istep = .recvSession) : t.rxcap = s.rxcap := by
  cases h with
  | host | startAnswered | sessionAnswered | failed => simp
  | startSent h | sessionSent h => simp [h] at hi

/-- What follows a reception: the host's command ends with its outcome, INITIALIZE goes on or ends true after a positive
response only. -/
theorem Completion.of_reception (h : Completion s r t)
    (hi : s.istep = .notRunning ∨ s.istep = .recvStart ∨ s.istep = .recvSession) :
    (s.istep = .notRunning → t.phase = .idle ∧ t.result = opResult r) ∧
      (s.istep ≠ .notRunning →
        if r = .finished ∧ s.positive = true then t.phase = .txGate ∨ (t.phase = .idle ∧ t.result = .bool true)
        else t.phase = .idle ∧ t.result = .bool false) := by
  cases h with
  | host h => exact ⟨fun _ => ⟨rfl, rfl⟩, fun hne => absurd h hne⟩
  | startSent h | sessionSent h => simp [h] at hi
  | startAnswered h hr hp => exact ⟨fun h0 => (by cases h0.symm.trans h), fun _ => by simp [hr, hp]⟩
  | sessionAnswered h hr hp => exact ⟨fun h0 => (by cases h0.symm.trans h), fun _ => by simp [hr, hp]⟩
  | failed h hr =>
    refine ⟨fun h0 => by simp [h0] at h, fun _ => ?_⟩
    rw [if_neg fun ⟨hf, hp⟩ => by simp [(hr hf).2] at hp]
    exact ⟨rfl, rfl⟩

/-- A poll step leaves the receiver's phases only at the end of an operation. -/
theorem PollTransition.ending_of_receiving (h : PollTransition s t) (hs : s.phase.receiving = true)
    (ht : t.phase.receiving = false) : ∃ r s1, Ending s r s1 ∧ Completion s1 r t := by
  cases h with
  | ended r s1 _ he hc => exact ⟨r, s1, he, hc⟩
  | stay | headerTaken | lengthTaken | dataTaken => exact absurd (hs.symm.trans ht) (by decide)
  | frameComplete => cases ht
  | gatePassed h | minPassed h | put h | nextByte h | echoMatched _ h | pinLow h | pinHigh h | lineResumed h =>
    rw [h] at hs
    cases hs

/-- In RX_PEEK an operation ends on the state as it is, FINISHED or PENDING by whether RXQ is empty (R170). -/
theorem Ending.of_peek (h : Ending s r s1) (hp : s.phase = .rxPeek) :
    s1 = s ∧ r = (if s.rxq = [] then .finished else .pending) ∧
      (s.rxq = [] → Claims.windowPassed s s.params.p2Max) := by
  cases h with
  | moreWaiting _ hq => exact ⟨rfl, (if_neg hq).symm, fun h => absurd h hq⟩
  | received _ hq hx => exact ⟨rfl, (if_pos hq).symm, fun _ => (s.exceeds_iff _).1 hx⟩
  | gateMissed h | sent h | echoDiffers _ _ h | headerRefused _ _ _ h | tooLong _ _ h | sumDiffers _ _ h | silent h =>
    cases hp.symm.trans h

/-- In RX_ASSEMBLE an operation ends with one of the receiver's six errors, which stands in LAST_ERROR (R163 to
R169). -/
theorem Ending.of_assemble (h : Ending s r s1) (hp : s.phase = .rxAssemble) :
    r = .error s1.lastError ∧ s1.lastError ∈ [ErrorCode.p2MaxTimeout, .badFormat, .badTargetAddress,
      .badSourceAddress, .bufferOverflow, .checksumMismatch] := by
  cases h with
  | headerRefused _ _ _ _ _ hc => rcases hc with ⟨-, -, rfl⟩ | ⟨-, -, rfl⟩ | ⟨-, -, rfl⟩ <;> simp
  | tooLong | sumDiffers | silent => simp
  | gateMissed h | sent h | echoDiffers _ _ h | moreWaiting h | received h => cases hp.symm.trans h

end

/-- Settles O33: a step that leaves the receiver ends its operation, from RX_PEEK with the frame that the invariant says
has passed every check, or from RX_ASSEMBLE with an error. -/
theorem endedReceptionHoldsAcceptedFrame : Obligations.EndedReceptionHoldsAcceptedFrame := by
  intro s t hI hs hstep ht
  obtain ⟨r, s1, he, hc⟩ := (pollStep_next hstep).ending_of_receiving hs ht
  have hi := (hI.receiving_facts hs).1
  cases hp : s.phase with
  | rxPeek =>
    obtain ⟨rfl, rfl, hwindow⟩ := he.of_peek hp
    obtain ⟨hhost, hinit⟩ := hc.of_reception hi
    have hframe := (hI.frameAccepted hp).frame hc.rxbuf_eq hc.params_eq hc.total_eq (hc.rxcap_eq hi)
    refine .inl ⟨rfl, hframe, hc.ref_eq, hc.rxq_eq, ?_, ?_, ?_⟩
    · rwa [hc.rxq_eq, Claims.windowPassed, hc.params_eq, hc.now_eq, hc.ref_eq]
    · rw [apply_ite opResult] at hhost
      rwa [hc.rxq_eq]
    · rw [hc.rxq_eq]
      simpa using hinit
  | rxAssemble =>
    obtain ⟨rfl, hcode⟩ := he.of_assemble hp
    obtain ⟨herr, hidle, hhost, hinit⟩ := hc.of_error
    rw [he.istep_eq] at hhost hinit
    refine .inr ⟨rfl, hidle, herr ▸ hcode, ?_⟩
    rw [herr]
    split
    next h => exact hhost h
    next h => exact hinit h
  | idle | txGate | txWait | txPut | txEcho | initWake =>
    rw [hp] at hs
    cases hs

end Sys2Proof.Machine

/-! # The ECU initializer (45_ecu_initializer.md)

INITIALIZE's equation of `exec` (R191), the wake-up pattern (R192, R193), the two requests it loads (R194, R196), how
each exchange goes on or fails (R195), and the properties of R197 and R198: INITIALIZE ends true only after both
exchanges, and every ending leaves the line resumed. -/

namespace Sys2Proof.Machine

/-! ## The wake-up pattern (R191 to R194) -/

/-- R191. -/
theorem exec_ecuInitialize (s : State) : exec .ecuInitialize s = .next { s with
    ref := s.now, lineEn := false, wakePin := true, dref := s.now, istep := .wakeIdle, phase := .initWake } := rfl

/-- Settles O40, by the equation of INITIALIZE. -/
theorem initializeSuspendsTheLine : Obligations.InitializeSuspendsTheLine := exec_ecuInitialize

/-- The two sides of a poll step that waits for `ms` since DREF (R193). -/
theorem delayPassed_cases {s t : State} {ms : Ms} (h : pollStep s = if s.waited ms then .next t else .next s) :
    (Claims.delayPassed s ms → pollStep s = .next t) ∧ (¬ Claims.delayPassed s ms → pollStep s = .next s) :=
  ⟨fun hd => h.trans (if_pos ((s.waited_iff ms).2 hd)), fun hd => h.trans (if_neg (mt (s.waited_iff ms).1 hd))⟩

/-- Settles O41, by the two sides of the test at each interval. -/
theorem wakePatternDrivesThePin : Obligations.WakePatternDrivesThePin := by
  intro s hp
  refine ⟨fun hi => delayPassed_cases (pollStep_wakeIdle hp hi), fun hi => delayPassed_cases (pollStep_wakeLow hp hi),
    fun hi => ?_⟩
  obtain ⟨hover, hstay⟩ := delayPassed_cases (pollStep_wakeHigh hp hi)
  exact ⟨fun hd => ⟨resumeLine s, hover hd, rfl⟩, hstay⟩

/-- Settles O42: the step resumes the line, which loads the request of R194 at the start of TXBUF. -/
theorem startRequestBytes : Obligations.StartRequestBytes := by
  intro s t hp hi hwf hd hstep
  have hresume := ((delayPassed_cases (pollStep_wakeHigh hp hi)).1 hd).symm.trans hstep
  cases hresume
  exact ⟨rfl, State.bytes_loadStartRequest (s := { s with lineEn := true, rxq := [] }) hwf,
    fun a ha => State.read_loadStartRequest (s := { s with lineEn := true, rxq := [] }) hwf ha⟩

/-! ## The exchanges (R195, R196) -/

/-- Settles O43: a positive first response takes INITIALIZE to its second request, loaded at the start of TXBUF. -/
theorem sessionRequestFollowsPositiveReply : Obligations.SessionRequestFollowsPositiveReply := fun s hi hwf hpos =>
  ⟨s.sendSessionInInit, (complete_recvStart .finished hi).trans (if_pos ⟨rfl, hpos⟩), rfl,
    State.bytes_loadSessionRequest hwf, fun _ ha => State.read_loadSessionRequest hwf ha⟩

/-- At either reception of INITIALIZE, an outcome that is not a FINISHED positive response ends it false. -/
theorem complete_failedReception {s : State} {r : OpResult} (hi : s.istep = .recvStart ∨ s.istep = .recvSession)
    (hr : ¬ (r = .finished ∧ s.positive = true)) : complete r s = .next ((s.settleLastError r).finishInit false) := by
  rcases hi with hi | hi
  · exact (complete_recvStart r hi).trans (if_neg hr)
  · exact (complete_recvSession r hi).trans (if_neg hr)

/-- Settles O44, by the equation of `complete` at each ISTEP; the free code is the next one drawn. -/
theorem exchangesContinueOrFail : Obligations.ExchangesContinueOrFail := by
  intro s
  refine ⟨fun hi => (complete_sendStart .finished hi).trans (if_pos rfl),
    fun hi => (complete_sendSession .finished hi).trans (if_pos rfl),
    fun hi => ⟨Config.anyErrorCode s.draws, complete_failedReception hi (by simp), fun hneg => ?_⟩,
    fun hi hpos => ⟨Config.anyErrorCode s.draws, (complete_recvSession .finished hi).trans (if_pos ⟨rfl, hpos⟩)⟩⟩
  exact complete_failedReception hi (by simp [hneg])

/-! ## How INITIALIZE ends (R197, R198) -/

/-- Settles O46: the next state meets the invariant too, which says this of every idle engine. -/
theorem endedCommandsLeaveTheLineResumed : Obligations.EndedCommandsLeaveTheLineResumed := by
  intro s t hI hstep ht
  obtain ⟨hi, hline, hpin⟩ := ((pollStep_next hstep).inv hI).idle_facts ht
  exact ⟨hpin, hline, hi⟩

section
variable {s s1 t : State} {r : OpResult}

/-- INITIALIZE ends true only at the end of its second exchange, FINISHED and positive (R195). -/
theorem Completion.of_true (h : Completion s r t) (hi : s.istep ≠ .notRunning) (ht : t.phase = .idle)
    (hres : t.result = .bool true) : s.istep = .recvSession ∧ r = .finished ∧ s.positive = true := by
  cases h with
  | host h => exact absurd h hi
  | sessionAnswered h hr hp => exact ⟨h, hr, hp⟩
  | failed => cases hres
  | startSent | startAnswered | sessionSent => cases ht

/-- The second reception of INITIALIZE ends FINISHED from RX_PEEK only (R170). -/
theorem Ending.peeking_of_recvSession (hI : Inv s) (h : Ending s .finished s1) (hi : s.istep = .recvSession) :
    s.phase = .rxPeek := by
  rcases h.of_finished with ⟨hp, -⟩ | ⟨hp, -⟩
  · obtain ⟨hsend, -⟩ := hI.sending_facts (by rw [hp]; rfl)
    simp [hi] at hsend
  · exact hp

/-- The service identifier of the start-diagnostic-session request is 0x10 (42_frame_validator.md R131). -/
theorem serviceId_of_sessionRequest {m : Memory} {p : Params} (h : Memory.bytes m 7 = sessionRequest p) :
    serviceId m = 0x10 := by
  have h0 := Memory.read_eq_of_bytes h (i := 0) (by decide)
  have h4 := Memory.read_eq_of_bytes h (i := 4) (by decide)
  rw [serviceId, ← Option.some.inj h0, ← Option.some.inj h4]
  exact if_neg (by decide)

/-- A response that is positive for the start-diagnostic-session request has 0x50 at offset 4 (42_frame_validator.md
R135). -/
theorem State.read_of_positive_session (h : Memory.bytes s.txbuf 7 = sessionRequest s.params)
    (hp : s.positive = true) : Memory.read s.rxbuf 4 = 0x50 := by
  have hsum := s.positive_iff.1 hp
  rw [serviceId_of_sessionRequest h] at hsum
  exact BitVec.eq_of_toNat_eq hsum

end

/-- Settles O45: a true ending is that of the second reception, which the invariant says holds an accepted frame and
`SentSoFar` that both requests were sent before it. -/
theorem trueOnlyAfterBothExchanges : Obligations.TrueOnlyAfterBothExchanges := by
  intro s t hI hS hrun hstep ht hres
  have hbusy : s.phase ≠ .idle := fun hp => hrun (hI.idle_facts hp).1
  obtain ⟨r, s1, he, hc⟩ := (pollStep_next hstep).ending hbusy ht
  obtain ⟨hi, rfl, hpos⟩ := hc.of_true (he.istep_eq.trans_ne hrun) ht hres
  rw [he.istep_eq] at hi
  have hp := he.peeking_of_recvSession hI hi
  obtain ⟨rfl, hout, hwindow⟩ := he.of_peek hp
  have hq : s1.rxq = [] := by
    by_contra hne
    simp [hne] at hout
  have hframe := (hI.frameAccepted hp).frame hc.rxbuf_eq hc.params_eq hc.total_eq (hc.rxcap_eq (.inr (.inr hi)))
  have hreply := State.read_of_positive_session (hS.second_loaded (.inr hi)).2 hpos
  obtain ⟨hpin, hline, hend⟩ := endedCommandsLeaveTheLineResumed s1 t hI hstep ht
  exact ⟨hi, hp, hq, hwindow hq, hpos, hc.txlog_eq ▸ hS.both_sent hi, hframe, hc.rxbuf_eq, hc.rxbuf_eq ▸ hreply,
    hc.ref_eq, hend, hpin, hline⟩

end Sys2Proof.Machine

/-! # The LAST_ERROR slot (46_last_error.md)

The accessor's equation of `exec` (R210), and what issuing a command leaves of the slot (R211, R22). -/

namespace Sys2Proof.Machine

/-- R210. -/
theorem exec_getLastError (s : State) : exec .getLastError s = .next { s with result := .errcode s.lastError } := rfl

/-- Settles O34: 0x07000000 is the encoding of GET_LAST_ERROR, which then acts by its equation. -/
theorem getLastErrorReadsTheSlot : Obligations.GetLastErrorReadsTheSlot :=
  ⟨decode_encode (i := .getLastError) rfl, exec_getLastError⟩

/-- Settles O35: a well-formed command completes its issuing step, and no command's effect there touches the slot. -/
theorem issuingACommandKeepsTheErrorSlot : Obligations.IssuingACommandKeepsTheErrorSlot := by
  intro i s hwf
  obtain ⟨t, ht⟩ := exec_of_wf hwf s
  exact ⟨t, ht, (exec_next ht).lastError_eq⟩

end Sys2Proof.Machine

/-! # Exceptions (60_exceptions.md)

What `complete` makes of an error at each ISTEP (R229, 45_ecu_initializer.md R195). -/

namespace Sys2Proof.Machine

/-- An error inside an exchange of INITIALIZE takes the exchange's "fail" arm (R195). -/
theorem complete_error_of_exchange {s : State} (c : ErrorCode)
    (hi : s.istep = .sendStart ∨ s.istep = .recvStart ∨ s.istep = .sendSession ∨ s.istep = .recvSession) :
    complete (.error c) s = .next (s.finishInit false) := by
  rcases hi with hi | hi | hi | hi
  · exact (complete_sendStart _ hi).trans (if_neg (by simp))
  · exact complete_failedReception (.inl hi) (by simp)
  · exact (complete_sendSession _ hi).trans (if_neg (by simp))
  · exact complete_failedReception (.inr hi) (by simp)

/-- R195 has no arm for an operation that ends during the wake-up steps (assumption log 15). -/
theorem complete_of_waking {s : State} (r : OpResult)
    (hi : s.istep = .wakeIdle ∨ s.istep = .wakeLow ∨ s.istep = .wakeHigh) : complete r s = .fault .noContinuation := by
  unfold complete
  rcases hi with hi | hi | hi <;> rw [hi]

/-- Settles O36, by what `complete` makes of an error outside INITIALIZE, in its exchanges and in its wake-up steps. -/
theorem raiseRecordsTheCodeAndEnds : Obligations.RaiseRecordsTheCodeAndEnds := fun c s =>
  ⟨complete_notRunning (s := { s with lastError := c }) (.error c),
    complete_error_of_exchange (s := { s with lastError := c }) c,
    complete_of_waking (s := { s with lastError := c }) (.error c)⟩

end Sys2Proof.Machine

/-! # Reset and hazards (70_reset_and_hazards.md)

The bound of `State.rank` (R270), and that of the listed moves only a poll and `rst` move a busy engine's rank. -/

namespace Sys2Proof.Machine

section
variable {s t : State}

/-- The longest operation is a transmission of 260 bytes, still at its gate. -/
theorem Inv.phaseRank_le (hI : Inv s) : phaseRank s ≤ 2 * bufSize + 3 := by
  cases hp : s.phase with
  | idle | initWake | rxAssemble | rxPeek =>
    simp only [phaseRank, hp, bufSize]
    omega
  | txGate | txWait | txPut | txEcho =>
    have hlen := (hI.sending_bounds (by rw [hp]; rfl)).2.1
    simp only [phaseRank, hp]
    omega

theorem stepRank_le (i : InitStep) : stepRank i ≤ 1802 := by cases i <;> decide

/-- Outside the wake-up steps the whole of INITIALIZE's first exchange is the most that can be left. -/
theorem stepRank_le_of_not_waking {i : InitStep} (h : ¬ (i = .wakeIdle ∨ i = .wakeLow ∨ i = .wakeHigh)) :
    stepRank i ≤ 1200 := by
  cases i <;> simp_all [stepRank]

theorem Inv.not_waking_istep (hI : Inv s) (h : s.phase ≠ .initWake) :
    ¬ (s.istep = .wakeIdle ∨ s.istep = .wakeLow ∨ s.istep = .wakeHigh) := by
  cases hp : s.phase with
  | idle => simp [(hI.idle_facts hp).1]
  | initWake => exact absurd hp h
  | txGate | txWait | txPut | txEcho =>
    rcases (hI.sending_facts (by rw [hp]; rfl)).1 with hi | hi | hi <;> simp [hi]
  | rxAssemble | rxPeek =>
    rcases (hI.receiving_facts (by rw [hp]; rfl)).1 with hi | hi | hi <;> simp [hi]

/-- The wake-up phase has no operation running, and every later step of INITIALIZE counts at most 1200. -/
theorem Inv.rank_le (hI : Inv s) : s.rank ≤ 1802 := by
  unfold State.rank
  by_cases hp : s.phase = .initWake
  · have hstep := stepRank_le s.istep
    simpa [phaseRank, hp] using hstep
  · have hstep := stepRank_le_of_not_waking (hI.not_waking_istep hp)
    have hphase := hI.phaseRank_le
    simp only [bufSize] at hphase
    omega

theorem Inv.rank_eq_zero_iff (hI : Inv s) : s.rank = 0 ↔ s.phase = .idle :=
  ⟨fun h0 => by_contra fun hb => (hI.rank_pos hb).ne' h0, hI.rank_of_idle⟩

/-- While a command runs, the clock, the line and the host port leave the engine where it waits. -/
theorem StepTransition.sameWait_of_move {m : Input} {rest : List Input} (h : StepTransition s t)
    (hb : s.phase ≠ .idle) (hin : s.inputs = m :: rest) (hpoll : m ≠ .poll) (hrst : m ≠ .rst) : SameWait s t := by
  cases h with
  | freePoll t hnil => simp [hnil] at hin
  | poll rest t h | reset rest h =>
    obtain ⟨rfl, -⟩ := List.cons.inj (h.symm.trans hin)
    contradiction
  | clock | bytesArrive | bytesLost | ignored | hostReads => exact ⟨rfl, rfl, rfl, rfl, rfl, rfl, rfl⟩
  | command _ _ _ _ _ hp | hostWritesTx _ _ _ _ hp | hostWritesRx _ _ _ _ hp => exact absurd hp hb

end

/-- Settles O57: `Inv` bounds the rank, a poll step that does not stay in its wait lowers it, and the other moves but
`rst` leave a busy engine in its wait. -/
theorem rankFallsWhenAWaitIsOver : Obligations.RankFallsWhenAWaitIsOver := by
  intro s hI
  refine ⟨hI.rank_le, hI.rank_eq_zero_iff, fun t ht => ?_, fun m rest t hb hin hpoll hrst ht => ?_⟩
  · rcases (pollStep_next ht).sameWait_or_rank_lt hI with ⟨hsame, hwaits⟩ | hlt
    · exact ⟨hsame.rank_eq.le, fun hover => by simp [hwaits] at hover⟩
    · exact ⟨hlt.le, fun _ => hlt⟩
  · have hsame := (step_next ht).sameWait_of_move hb hin hpoll hrst
    exact ⟨hsame.rank_eq, hsame.phase⟩

end Sys2Proof.Machine
